-- ==== Sys2Proof/Word.lean ====
section
/-! DEFINITION. Word types of the block and the seven-lane register shape (30_encoding.md R70, R75, R77; 10_state.md R21). -/

namespace Sys2Proof

/-- A request word `REQ[17:0]` (R70). -/
abbrev Req := BitVec 18

/-- A Detection Code `code[6:0]`, bit `i` for resonator `i` (R77). -/
abbrev Code := BitVec 7

/-- A response word `RSP[7:0]` (R75). -/
abbrev Rsp := BitVec 8

/-- A 16-bit register: a delay register, a coefficient, the Threshold, the operand field of a request
(R21, R28, R31, R70), or one raw sample zero-extended from `SAMPLE_W <= 16` bits (R73). -/
abbrev Word16 := BitVec 16

/-- One value for each of the seven resonators, `k = 0..6` (R21). -/
structure Lanes (α : Type) where
  r0 : α
  r1 : α
  r2 : α
  r3 : α
  r4 : α
  r5 : α
  r6 : α
  deriving DecidableEq, Repr

/-- The value of resonator `k`. -/
def Lanes.get {α : Type} (v : Lanes α) : Fin 7 → α
  | 0 => v.r0
  | 1 => v.r1
  | 2 => v.r2
  | 3 => v.r3
  | 4 => v.r4
  | 5 => v.r5
  | 6 => v.r6

/-- The lanes with `f k` for resonator `k`. -/
def Lanes.ofFn {α : Type} (f : Fin 7 → α) : Lanes α :=
  ⟨f 0, f 1, f 2, f 3, f 4, f 5, f 6⟩

/-- The same value in every lane. -/
def Lanes.fill {α : Type} (a : α) : Lanes α := ⟨a, a, a, a, a, a, a⟩

end Sys2Proof
end

