-- ==== Sys2Proof/Config.lean ====
section
/-! DEFINITION. What an implementation of the block fixes (00_scope.md R8, 10_state.md R31) and the one free value of the model, the service order of coincident requests. The default values and the well-formedness check stand in Machine/Configure.lean. -/

namespace Sys2Proof

/-- The twelve digit symbols of R76. -/
inductive Symbol where
  | key0 | key1 | key2 | key3 | key4 | key5 | key6 | key7 | key8 | key9 | star | hash
  deriving DecidableEq, Repr

/-- `OVF_MODE` of R8: what a delay-register write does with a value outside 16 bits (R107). -/
inductive OvfMode where
  | wrap | sat
  deriving DecidableEq, Repr

/-- The configuration: every OPEN parameter of R8 that a rule reads. `FS_HZ` and `TONE_HZ` are informative there
and no rule reads them, so they have no field. -/
structure Config where
  /-- `BLOCK_SIZE`, samples per block. -/
  blockSize : Nat
  /-- `SAMPLE_W`, width of a raw sample. -/
  sampleW : Nat
  /-- `COEFF[0..6]`, signed 16-bit constants (R10, R31). -/
  coeff : Lanes Word16
  /-- `FINAL_SHIFT`. -/
  finalShift : Nat
  /-- `ACC_W`, width of the magnitude accumulator. -/
  accW : Nat
  /-- `OVF_MODE`. -/
  ovfMode : OvfMode
  /-- `LOW_MASK` (R77). -/
  lowMask : Code
  /-- `HIGH_MASK` (R77). -/
  highMask : Code
  /-- `DTAB`, one ordered list of (code, symbol) pairs (R78, R139). -/
  dtab : List (Code × Symbol)
  deriving DecidableEq, Repr

/-- `ARB` of R8, left open by R64: whether the block instance `unitId` serves the Producer's request first at its
`turn`-th coincidence. A FREE VALUE with no body, so that a statement holds for both orders; it takes the instance as an
argument because instances share nothing (R184). DESIGN CHOICE, safe: notes/assumptions/6.md. -/
opaque Config.producerFirst (unitId turn : Nat) : Bool

end Sys2Proof
end

