-- ==== Sys2Proof/Machine/Configure.lean ====
section
/-! DEFINITION. The configuration's default values (00_scope.md R8, 30_encoding.md R77, R78), its well-formedness (R9, R79), and the derived width `CNT_W`. -/

namespace Sys2Proof.Machine

/-- The twelve symbols, in the order of R76's table. -/
def allSymbols : List Symbol :=
  [.key0, .key1, .key2, .key3, .key4, .key5, .key6, .key7, .key8, .key9, .star, .hash]

/-- How many bits of a Detection Code are set. -/
def popcount (c : Code) : Nat :=
  (c.getLsbD 0).toNat + (c.getLsbD 1).toNat + (c.getLsbD 2).toNat + (c.getLsbD 3).toNat + (c.getLsbD 4).toNat
    + (c.getLsbD 5).toNat + (c.getLsbD 6).toNat

/-- R79 (b): exactly one bit inside each mask. -/
def oneLowOneHigh (lowMask highMask code : Code) : Bool :=
  popcount (code &&& lowMask) == 1 && popcount (code &&& highMask) == 1

/-- R79 (a) to (c): the masks split the seven bits; 12 entries, each with exactly one low and one high bit; the
codes distinct; the symbols distinct and exactly the twelve of R76. -/
def dtabWf (c : Config) : Bool :=
  c.lowMask &&& c.highMask == 0
    && c.lowMask ||| c.highMask == 0x7F#7
    && c.dtab.length == 12
    && c.dtab.all (fun e => oneLowOneHigh c.lowMask c.highMask e.1)
    && decide ((c.dtab.map Prod.fst).Nodup)
    && decide ((c.dtab.map Prod.snd).Nodup)
    && allSymbols.all (fun d => (c.dtab.map Prod.snd).contains d)

/-- A well-formed configuration, R9. The range of `COEFF[k]` is that of its type. -/
def configWf (c : Config) : Bool :=
  decide (1 ≤ c.blockSize)
    && decide (1 ≤ c.sampleW) && decide (c.sampleW ≤ 16)
    && decide (32 ≤ c.accW)
    && decide (c.finalShift < c.accW)
    && dtabWf c

/-- The default Digit Table, R78, entries 0 to 11. -/
def defaultDtab : List (Code × Symbol) :=
  [(0x11#7, .key1), (0x21#7, .key2), (0x41#7, .key3), (0x12#7, .key4), (0x22#7, .key5), (0x42#7, .key6),
   (0x14#7, .key7), (0x24#7, .key8), (0x44#7, .key9), (0x18#7, .star), (0x28#7, .key0), (0x48#7, .hash)]

/-- The default coefficients, R8. -/
def defaultCoeff : Lanes Word16 :=
  ⟨27980#16, 26956#16, 25701#16, 24219#16, 19073#16, 16325#16, 13085#16⟩

/-- Every OPEN parameter at its default, R8 and R77. -/
def defaultConfig : Config where
  blockSize := 205
  sampleW := 10
  coeff := defaultCoeff
  finalShift := 16
  accW := 32
  ovfMode := .wrap
  lowMask := 0x0F#7
  highMask := 0x70#7
  dtab := defaultDtab

/-- `CNT_W` of R8: the least `n` with `2^n > BLOCK_SIZE`. -/
def cntW (c : Config) : Nat := Nat.log2 c.blockSize + 1

end Sys2Proof.Machine
end

