-- ==== Sys2Proof/Syntax.lean ====
section
/-! DEFINITION. The instructions: one constructor per row of spec/opcode_table.json, the two word formats of that table, and the two agents. -/

namespace Sys2Proof

/-- One constructor per row of spec/opcode_table.json. The first four are the request operations of R3; the twelve
`digit…` rows are the Detection Codes of the default Digit Table (R78), which run through `DECODE` (R136). -/
inductive Instr where
  /-- `NOP`, R155. -/
  | nop
  /-- `INIT t`, R156. -/
  | init (t : Word16)
  /-- `SUBMIT raw`, R91; the operand zero-extended to the 16 bits of `arg` (R73). -/
  | submit (raw : Word16)
  /-- `POLL`, R158. -/
  | poll
  /-- Code 0x11. -/
  | digit1
  /-- Code 0x21. -/
  | digit2
  /-- Code 0x41. -/
  | digit3
  /-- Code 0x12. -/
  | digit4
  /-- Code 0x22. -/
  | digit5
  /-- Code 0x42. -/
  | digit6
  /-- Code 0x14. -/
  | digit7
  /-- Code 0x24. -/
  | digit8
  /-- Code 0x44. -/
  | digit9
  /-- Code 0x18. -/
  | digitStar
  /-- Code 0x28. -/
  | digit0
  /-- Code 0x48. -/
  | digitHash
  deriving DecidableEq, Repr

/-- The two formats of spec/opcode_table.json: `REQ18` request words (R70) and `DCODE7` Detection Codes (R77). -/
inductive InstrWord where
  | req (w : Req)
  | code (c : Code)
  deriving DecidableEq, Repr

/-- The two agents of R4. -/
inductive Agent where
  | producer | consumer
  deriving DecidableEq, Repr

end Sys2Proof
end

