-- ==== Sys2Proof/WellFormed.lean ====
section
/-! DEFINITION. Which instruction terms are requests the block's contract admits as words (30_encoding.md R72, R73, R81). -/

namespace Sys2Proof

/-- `INIT`'s operand is not 0 (R72, R81); `SUBMIT`'s fits `SAMPLE_W` bits (R73, R81). The other rows have no operand. -/
def Instr.wf (sampleW : Nat) : Instr → Bool
  | .nop => true
  | .init t => t != 0
  | .submit raw => decide (raw.toNat < 2 ^ sampleW)
  | .poll => true
  | .digit1 => true
  | .digit2 => true
  | .digit3 => true
  | .digit4 => true
  | .digit5 => true
  | .digit6 => true
  | .digit7 => true
  | .digit8 => true
  | .digit9 => true
  | .digitStar => true
  | .digit0 => true
  | .digitHash => true

end Sys2Proof
end

