-- ==== Sys2Proof/Decode.lean ====
section
/-! DEFINITION. Decoding of request words and Detection Codes, total and rejecting by name (30_encoding.md R70 to R81, spec/opcode_table.json), and after it the encoder. -/

namespace Sys2Proof

/-- Why a word is no instruction of the opcode table. -/
inductive Reject where
  /-- A reserved bit is set: R81, the `ReservedBits` of R174. -/
  | reservedBits
  /-- A Detection Code that is no row of the table: one of the 116 of R80, an ordinary value that decodes to `none`. -/
  | unlistedCode
  /-- Neither one byte (`DCODE7`) nor three bytes (`REQ18`): no word of a format of the table. -/
  | badLength
  deriving DecidableEq, Repr

/-- `op = REQ[17:16]`, R70. -/
def reqOp (w : Req) : BitVec 2 := w.extractLsb' 16 2

/-- `arg = REQ[15:0]`, R70. -/
def reqArg (w : Req) : Word16 := w.extractLsb' 0 16

/-- `arg[15:SAMPLE_W] = 0`, R73: nothing above the sample's width is set. -/
def rawFits (sampleW : Nat) (arg : Word16) : Bool := arg >>> sampleW == 0

/-- The instruction of a request word, R70 to R74, R81. A word `INIT 0` is read as `INIT` with operand 0, which its
admission refuses as `BadThreshold` (R157 (d), R174): notes/assumptions/12.md. -/
def decodeRequest (sampleW : Nat) (w : Req) : Except Reject Instr :=
  if reqOp w = 0b00#2 then
    if reqArg w = 0 then .ok .nop else .error .reservedBits
  else if reqOp w = 0b01#2 then .ok (.init (reqArg w))
  else if reqOp w = 0b10#2 then
    if rawFits sampleW (reqArg w) then .ok (.submit (reqArg w)) else .error .reservedBits
  else if reqArg w = 0 then .ok .poll else .error .reservedBits

/-- The `DCODE7` rows of spec/opcode_table.json, in its order. -/
def digitRows : List (Code × Instr) :=
  [(0b0010001#7, .digit1), (0b0100001#7, .digit2), (0b1000001#7, .digit3), (0b0010010#7, .digit4),
   (0b0100010#7, .digit5), (0b1000010#7, .digit6), (0b0010100#7, .digit7), (0b0100100#7, .digit8),
   (0b1000100#7, .digit9), (0b0011000#7, .digitStar), (0b0101000#7, .digit0), (0b1001000#7, .digitHash)]

/-- The opcode-table row of a Detection Code. -/
def decodeCode (c : Code) : Except Reject Instr :=
  match digitRows.find? (fun row => row.1 == c) with
  | some row => .ok row.2
  | none => .error .unlistedCode

/-- The instruction of a word of either format. -/
def decodeWord (sampleW : Nat) : InstrWord → Except Reject Instr
  | .req w => decodeRequest sampleW w
  | .code c => decodeCode c

/-- The instruction of a word laid out in whole bytes, the byte with bits 7..0 first: one byte is a `DCODE7` word,
three bytes a `REQ18` word; bits the format does not have must be 0. The spec has no byte layout (R52):
notes/assumptions/13.md. -/
def decodeBytes (sampleW : Nat) : List (BitVec 8) → Except Reject Instr
  | [b0] => if b0.toNat < 2 ^ 7 then decodeCode (b0.setWidth 7) else .error .reservedBits
  | [b0, b1, b2] =>
    if b2.toNat < 2 ^ 2 then decodeRequest sampleW ((b2 ++ b1 ++ b0).setWidth 18) else .error .reservedBits
  | _ => .error .badLength

/-- The `n` low bytes of `w`, the byte with bits 7..0 first. -/
def bytesOf : Nat → Nat → List (BitVec 8)
  | 0, _ => []
  | n + 1, w => BitVec.ofNat 8 w :: bytesOf n (w / 256)

/-- What the decoder reads from an opcode-table word of `nbits` bits, `SAMPLE_W` at its default as in the table. -/
def decodeTableWord (nbits w : Nat) : Option Instr :=
  match decodeBytes Machine.defaultConfig.sampleW (bytesOf ((nbits + 7) / 8) w) with
  | .ok i => some i
  | .error _ => none

/-- `{op, arg}`, R70. -/
def reqWord (op : BitVec 2) (arg : Word16) : Req := op ++ arg

/-- The word of an instruction: R72 to R74, R85, and the codes of R78. -/
def encode : Instr → InstrWord
  | .nop => .req (reqWord 0b00#2 0)
  | .init t => .req (reqWord 0b01#2 t)
  | .submit raw => .req (reqWord 0b10#2 raw)
  | .poll => .req (reqWord 0b11#2 0)
  | .digit1 => .code 0x11#7
  | .digit2 => .code 0x21#7
  | .digit3 => .code 0x41#7
  | .digit4 => .code 0x12#7
  | .digit5 => .code 0x22#7
  | .digit6 => .code 0x42#7
  | .digit7 => .code 0x14#7
  | .digit8 => .code 0x24#7
  | .digit9 => .code 0x44#7
  | .digitStar => .code 0x18#7
  | .digit0 => .code 0x28#7
  | .digitHash => .code 0x48#7

end Sys2Proof
end

