-- ==== Sys2Proof/Machine/Arith.lean ====
section
/-! DEFINITION. The integer arithmetic of the block (00_scope.md R12, R13; 41_filter_bank.md R101): exact integers, floor shift, wrapping, saturating, and the write of a delay register. -/

namespace Sys2Proof.Machine

/-- `asr(v, k) = floor(v / 2^k)`, R12, R13: `Int` division by a positive number rounds toward minus infinity. -/
def asr (v : Int) (k : Nat) : Int := v / (2 : Int) ^ k

/-- `wrapS_N(v)`, R12: the one integer of `[-2^(N-1), 2^(N-1)-1]` congruent to `v` modulo `2^N` (`N >= 1`). -/
def wrapS (n : Nat) (v : Int) : Int :=
  (v + (2 : Int) ^ (n - 1)) % (2 : Int) ^ n - (2 : Int) ^ (n - 1)

/-- `satS_N(v)`, R12. -/
def satS (n : Nat) (v : Int) : Int :=
  if v < -(2 : Int) ^ (n - 1) then -(2 : Int) ^ (n - 1)
  else if v > (2 : Int) ^ (n - 1) - 1 then (2 : Int) ^ (n - 1) - 1
  else v

/-- `narrow16(v)`, R12, R107. -/
def narrow16 (mode : OvfMode) (v : Int) : Int :=
  match mode with
  | .wrap => wrapS 16 v
  | .sat => satS 16 v

/-- A 16-bit signed value as a register word. -/
def regWord (v : Int) : Word16 := BitVec.ofInt 16 v

/-- The signed value of a register word (R11, R21). -/
def regInt (w : Word16) : Int := w.toInt

end Sys2Proof.Machine
end

