-- ==== Sys2Proof/Machine/State.lean ====
section
/-! DEFINITION. The whole state of one block instance (10_state.md R20 to R35) as plain data, the reasons a step can stop, and the state after hardware reset. -/

namespace Sys2Proof.Machine

/-- The Sample Buffer `BUF` (R32, R50): its written entries as (index, raw sample) pairs, indexes strictly rising. An
index with no pair holds no value: notes/assumptions/3.md, 4.md. -/
abbrev Memory := List (Nat × Word16)

/-- Why the machine stops with a fault. The block has none (R170); both stand for a buffer read that R53 calls
unreachable, and both are SAFE: the model stops where the spec gives no behaviour. -/
inductive Fault where
  /-- Raised by the buffer read (`readSample`) at an index outside `0..BLOCK_SIZE-1` (R50, R53). Safe. -/
  | indexOutOfRange
  /-- Raised by the buffer read (`readSample`) at an entry that no `SUBMIT` has written (R32, R53). Safe. -/
  | entryUnwritten
  deriving DecidableEq, Repr

/-- Why a request has no meaning: the closed list of R174. All are SAFE: the spec assigns no behaviour. -/
inductive Refusal where
  /-- Raised by an arm of `exec` that has no meaning yet. Safe. -/
  | notModelled (mnemonic : String)
  /-- `SUBMIT`, `POLL` or a Detection Code while `READY = 0` (R94, R161). Safe. -/
  | notReady
  /-- `INIT` while `READY = 1` and a block is in flight (R157 (c)). Safe. -/
  | initInFlight
  /-- `INIT` with `t = 0` (R72, R157 (d)). Safe. -/
  | badThreshold
  /-- A request word, or a `SUBMIT` operand, with a reserved bit set (R81). Safe. -/
  | reservedBits
  /-- `SUBMIT` from the Consumer; `NOP`, `INIT` or `POLL` from the Producer (R71). Safe. -/
  | wrongAgent
  /-- The configuration is not well formed (R9). Safe. -/
  | badConfig
  deriving DecidableEq, Repr

/-- The state of one block instance (R20) with its configuration (`cfg`, read-only) and its request and response
interface (`producer`, `consumer`, `unitId`, `turn`, `responses`, the model's own). -/
structure State where
  /-- The configuration of R8, which no operation writes (R31): notes/assumptions/1.md. -/
  cfg : Config
  /-- `D1[0..6]` (R21). -/
  d1 : Lanes Word16
  /-- `D2[0..6]` (R21). -/
  d2 : Lanes Word16
  /-- `BUF[0..BLOCK_SIZE-1]` (R32). -/
  buf : Memory
  /-- `CNT`, the Block Counter (R24). -/
  cnt : Nat
  /-- `IDX`, the per-block sample index (R25). -/
  idx : Nat
  /-- `THRESH`, the Threshold (R28). -/
  thresh : Word16
  /-- `LATCH`, the Debounce State: `none` or a symbol (R29). -/
  latch : Option Symbol
  /-- `READY` (R30). -/
  ready : Bool
  /-- The Producer's pending request words, oldest first: notes/assumptions/5.md. -/
  producer : List Req
  /-- The Consumer's pending request words, oldest first: notes/assumptions/5.md. -/
  consumer : List Req
  /-- Which block instance this is, the first argument of the free value `Config.producerFirst`; no operation writes
it: notes/assumptions/6.md. -/
  unitId : Nat
  /-- How many coincidences have been arbitrated, the second argument of `Config.producerFirst`:
  notes/assumptions/6.md. -/
  turn : Nat
  /-- The responses given so far, oldest first (R162); no operation reads it: notes/assumptions/7.md. -/
  responses : List Rsp
  deriving DecidableEq, Repr

/-- All fourteen delay registers' reset-free value: 0 in every lane. -/
def zeroLanes : Lanes Word16 := Lanes.fill 0

/-- The block with configuration `c` right after hardware reset (R35, R190): `READY = 0`; the elements R35 leaves
unspecified at the values of notes/assumptions/2.md, 3.md. -/
def State.afterReset (c : Config) : State where
  cfg := c
  d1 := zeroLanes
  d2 := zeroLanes
  buf := []
  cnt := 0
  idx := 0
  thresh := 0
  latch := none
  ready := false
  producer := []
  consumer := []
  unitId := 0
  turn := 0
  responses := []

/-- The machine right after hardware reset, every parameter at its default (R8, R35, R190). -/
def State.reset : State := State.afterReset defaultConfig

end Sys2Proof.Machine
end

