-- ==== Sys2Proof/Machine/Flags.lean ====
section
/-! DEFINITION. The derived conditions of 10_state.md R27, the threshold detector (42_block_finalizer.md R125) and the packing of the Detection Code (R126). -/

namespace Sys2Proof.Machine

/-- `AVAIL = (IDX < CNT)`, R27. -/
def avail (s : State) : Bool := decide (s.idx < s.cnt)

/-- `FULL = (CNT = BLOCK_SIZE)`, R27. -/
def full (s : State) : Bool := decide (s.cnt = s.cfg.blockSize)

/-- `IN_FLIGHT = (CNT != 0 or IDX != 0)`, R27. -/
def inFlight (s : State) : Bool := s.cnt != 0 || s.idx != 0

/-- `M[k] > THRESH`: strict, the signed magnitude against the unsigned Threshold, as integers (R125). -/
def exceeds (m : Int) (thresh : Word16) : Bool := decide (m > (thresh.toNat : Int))

/-- The Detection Code with bit `k` as the outcome of resonator `k`, bit 0 least significant (R126). -/
def packCode (b : Lanes Bool) : Code :=
  BitVec.ofNat 7 (b.r0.toNat + 2 * b.r1.toNat + 4 * b.r2.toNat + 8 * b.r3.toNat + 16 * b.r4.toNat
    + 32 * b.r5.toNat + 64 * b.r6.toNat)

end Sys2Proof.Machine
end

