-- ==== Sys2Proof/Machine/Operands.lean ====
section
/-! DEFINITION. What the operands and issuers of requests may be (30_encoding.md R71 to R74) and the centering of a sample (41_filter_bank.md R104). -/

namespace Sys2Proof.Machine

/-- Which agent may present which operation (R71). The `DCODE7` rows are presented by no agent (R82). -/
def permitted : Agent → Instr → Bool
  | .producer, .submit _ => true
  | .consumer, .nop => true
  | .consumer, .init _ => true
  | .consumer, .poll => true
  | _, _ => false

/-- The Threshold operand of `INIT` is a positive integer (R72). -/
def thresholdLegal (t : Word16) : Bool := t != 0

/-- The centered sample `x = raw - 2^(SAMPLE_W-1)`, R104. -/
def centered (sampleW : Nat) (raw : Word16) : Int := (raw.toNat : Int) - (2 : Int) ^ (sampleW - 1)

end Sys2Proof.Machine
end

