-- ==== Sys2Proof/Machine/Ops.lean ====
section
/-! DEFINITION. The named operations over the buffer, the registers and the response that every meaning is built from (10_state.md, 20_memory.md R50 to R55). The block takes no exception and returns from none (60_exceptions.md R170, R177, R178), so no operation for either stands here. -/

namespace Sys2Proof.Machine

/-! ### The Sample Buffer -/

/-- The canonical form: indexes strictly rising. -/
def Memory.wf : Memory → Bool
  | [] => true
  | [_] => true
  | e :: f :: rest => decide (e.1 < f.1) && Memory.wf (f :: rest)

/-- `BUF[i]`, if it has been written. -/
def Memory.read : Memory → Nat → Option Word16
  | [], _ => none
  | e :: rest, i => if e.1 = i then some e.2 else Memory.read rest i

/-- `BUF[i] <- v` (`MemWrite(i, 1, v)`, R12), in canonical form. -/
def Memory.write : Memory → Nat → Word16 → Memory
  | [], i, v => [(i, v)]
  | e :: rest, i, v =>
    if i < e.1 then (i, v) :: e :: rest
    else if i = e.1 then (i, v) :: rest
    else e :: Memory.write rest i v

/-- `MemRead(IDX, 1)`, R12, R106: the entry the Filter Bank takes next. Outside `0..BLOCK_SIZE-1`, and at an entry
never written, the spec gives no read (R53): a fault, notes/assumptions/3.md. -/
def readSample (s : State) : Except Fault Word16 :=
  if s.idx < s.cfg.blockSize then
    match Memory.read s.buf s.idx with
    | some raw => .ok raw
    | none => .error .entryUnwritten
  else .error .indexOutOfRange

/-! ### Writes of the registers -/

/-- Write all of `D1` and `D2`. -/
def State.setDelays (s : State) (d1 d2 : Lanes Word16) : State := { s with d1 := d1, d2 := d2 }

/-- Write `BUF`. -/
def State.setBuf (s : State) (buf : Memory) : State := { s with buf := buf }

/-- Write `CNT` and `IDX`. -/
def State.setCounters (s : State) (cnt idx : Nat) : State := { s with cnt := cnt, idx := idx }

/-- Write `THRESH`. -/
def State.setThresh (s : State) (t : Word16) : State := { s with thresh := t }

/-- Write `LATCH`. -/
def State.setLatch (s : State) (l : Option Symbol) : State := { s with latch := l }

/-- Write `READY`. -/
def State.setReady (s : State) (r : Bool) : State := { s with ready := r }

/-- Write the request queues and the arbitration counter. -/
def State.setRequests (s : State) (producer consumer : List Req) (turn : Nat) : State :=
  { s with producer := producer, consumer := consumer, turn := turn }

/-! ### The response -/

/-- The symbol's code, R76 (ASCII). -/
def symbolCode : Symbol → Rsp
  | .key0 => 0x30#8
  | .key1 => 0x31#8
  | .key2 => 0x32#8
  | .key3 => 0x33#8
  | .key4 => 0x34#8
  | .key5 => 0x35#8
  | .key6 => 0x36#8
  | .key7 => 0x37#8
  | .key8 => 0x38#8
  | .key9 => 0x39#8
  | .star => 0x2A#8
  | .hash => 0x23#8

/-- The response word of an event, `0x00` for `none` (R75, R76). -/
def rspWord : Option Symbol → Rsp
  | none => 0x00#8
  | some d => symbolCode d

/-- The eight stored bits of `LATCH` (R29, R76). -/
def State.latchWord (s : State) : Rsp := rspWord s.latch

/-- `respond(ev)`, R12: the response reaches the agent that issued the request. -/
def State.respond (s : State) (ev : Option Symbol) : State :=
  { s with responses := s.responses ++ [rspWord ev] }

/-! ### Admission -/

/-- Run under a well-formed configuration only (R9, R174 `BadConfig`). -/
def whenConfigured (s : State) (k : Host.Outcome State Fault Refusal) : Host.Outcome State Fault Refusal :=
  if configWf s.cfg then k else .refused .badConfig

/-- Run only after the first `INIT` (R30, R174 `NotReady`). -/
def whenReady (s : State) (k : Host.Outcome State Fault Refusal) : Host.Outcome State Fault Refusal :=
  whenConfigured s (if s.ready then k else .refused .notReady)

end Sys2Proof.Machine
end

