-- ==== Sys2Proof/Machine/DigitDecoder.lean ====
section
/-! DEFINITION. The Digit Decoder, micro-operation DECODE (43_digit_decoder.md R135 to R139). -/

namespace Sys2Proof.Machine

/-- DECODE (R136): the symbol of the first table entry whose seven bits all equal the code, else `none`. -/
def decodeDigit (c : Config) (code : Code) : Option Symbol :=
  match c.dtab.find? (fun e => e.1 == code) with
  | some e => some e.2
  | none => none

end Sys2Proof.Machine
end

