-- ==== Sys2Proof/Machine/DebounceLatch.lean ====
section
/-! DEFINITION. The Debounce Latch, micro-operation DEBOUNCE (44_debounce_latch.md R145 to R150), and the end of a completing POLL (45_host_operations.md R158, R160). -/

namespace Sys2Proof.Machine

/-- DEBOUNCE (R146): from `LATCH` and the decoded digit, the new `LATCH` and the emitted event. -/
def debounce (latch dg : Option Symbol) : Option Symbol × Option Symbol :=
  match dg with
  | none => (none, none)
  | some d => if latch = some d then (latch, none) else (some d, some d)

/-- The steps of R158 that follow FINALIZE: `dg = DECODE code`, `ev = DEBOUNCE dg`, `respond(ev)`. -/
def concludeBlock (code : Code) (s : State) : State :=
  (s.setLatch (debounce s.latch (decodeDigit s.cfg code)).1).respond
    (debounce s.latch (decodeDigit s.cfg code)).2

end Sys2Proof.Machine
end

