-- ==== Sys2Proof/Machine/FilterBank.lean ====
section
/-! DEFINITION. The Filter Bank's per-sample update of one resonator and of the bank (41_filter_bank.md R100 to R109). -/

namespace Sys2Proof.Machine

/-- `SCALE`, R8. -/
def scale : Nat := 14

/-- `fb = asr(D1[k] * COEFF[k], 14)`, R102, R103, on the exact product. -/
def feedback (d1 coeff : Int) : Int := asr (d1 * coeff) scale

/-- `y = x + fb - D2[k]`, R105, exact. -/
def newOutput (x d1 d2 coeff : Int) : Int := x + feedback d1 coeff - d2

/-- What the sample `x` leaves in `D1[k]`: the narrowed `y` of the OLD registers (R106 to R108). -/
def filteredD1 (mode : OvfMode) (x : Int) (d1 d2 coeff : Word16) : Word16 :=
  regWord (narrow16 mode (newOutput x (regInt d1) (regInt d2) (regInt coeff)))

/-- All seven resonators take the sample `raw` (R106): `D2[k]` becomes the old `D1[k]`. The lanes are independent,
so their order is not observable (R109). -/
def filterSample (raw : Word16) (s : State) : State :=
  s.setDelays
    (Lanes.ofFn fun k =>
      filteredD1 s.cfg.ovfMode (centered s.cfg.sampleW raw) (s.d1.get k) (s.d2.get k) (s.cfg.coeff.get k))
    s.d1

end Sys2Proof.Machine
end

