-- ==== Sys2Proof/Machine/Finalizer.lean ====
section
/-! DEFINITION. The Block Finalizer, micro-operation FINALIZE (42_block_finalizer.md R120 to R127). -/

namespace Sys2Proof.Machine

/-- `e = D1*D1 + D2*D2 - fb*D2`, exact (R121, R122). -/
def energy (d1 d2 coeff : Int) : Int := d1 * d1 + d2 * d2 - feedback d1 coeff * d2

/-- `M[k] = asr(wrapS_ACC_W(e), FINAL_SHIFT)`, R122, R123. -/
def magnitude (c : Config) (d1 d2 coeff : Word16) : Int :=
  asr (wrapS c.accW (energy (regInt d1) (regInt d2) (regInt coeff))) c.finalShift

/-- The seven magnitudes `M[0..6]` (R121). -/
def magnitudes (s : State) : Lanes Int :=
  Lanes.ofFn fun k => magnitude s.cfg (s.d1.get k) (s.d2.get k) (s.cfg.coeff.get k)

/-- The Detection Code of the delay registers (R125, R126). -/
def detectionCode (s : State) : Code :=
  packCode (Lanes.ofFn fun k => exceeds ((magnitudes s).get k) s.thresh)

/-- FINALIZE (R121): the Detection Code, and every delay register reset to 0 (R124). -/
def finalize (s : State) : State × Code := (s.setDelays zeroLanes zeroLanes, detectionCode s)

end Sys2Proof.Machine
end

