-- ==== Sys2Proof/Machine/ConsumerOps.lean ====
section
/-! DEFINITION. The Consumer's operations NOP, INIT and POLL (45_host_operations.md R155 to R162), and CONSUME, the first step of a POLL that finds a sample (41_filter_bank.md R106, R110). -/

namespace Sys2Proof.Machine

/-- `NOP` (R155): nothing; admitted also while `READY = 0`. -/
def execNop (s : State) : Host.Outcome State Fault Refusal := whenConfigured s (.next s)

/-- The effect of `INIT t` (R156): everything but `BUF`. -/
def startUp (t : Word16) (s : State) : State :=
  ((((s.setThresh t).setDelays zeroLanes zeroLanes).setLatch none).setCounters 0 0).setReady true

/-- `INIT t` (R156, R157). -/
def execInit (t : Word16) (s : State) : Host.Outcome State Fault Refusal :=
  whenConfigured s
    (if thresholdLegal t then
      if s.ready && inFlight s then .refused .initInFlight else .next (startUp t s)
    else .refused .badThreshold)

/-- Block completion (R110): FINALIZE, then `IDX <- 0` and `CNT <- 0`; answers the Detection Code. -/
def completeBlock (s : State) : State × Code := ((finalize s).1.setCounters 0 0, (finalize s).2)

/-- CONSUME (R106): one sample through the bank, `IDX + 1`, and at `BLOCK_SIZE` the completion of the block (R110). -/
def consume (s : State) : Except Fault (State × Option Code) :=
  match readSample s with
  | .error f => .error f
  | .ok raw =>
    let s1 := (filterSample raw s).setCounters s.cnt (s.idx + 1)
    if s1.idx = s1.cfg.blockSize then .ok ((completeBlock s1).1, some (completeBlock s1).2)
    else .ok (s1, none)

/-- `POLL` (R158). -/
def execPoll (s : State) : Host.Outcome State Fault Refusal :=
  whenReady s
    (if avail s then
      match consume s with
      | .error f => .fault f
      | .ok (s1, some code) => .next (concludeBlock code s1)
      | .ok (s1, none) => .next (s1.respond none)
    else .next (s.respond none))

end Sys2Proof.Machine
end

