-- ==== Sys2Proof/Machine/Digits.lean ====
section
/-! DEFINITION. The twelve DCODE7 rows of spec/opcode_table.json (43_digit_decoder.md R136): a Detection Code goes through DECODE, its result is handed to DEBOUNCE, and that result is the response (45_host_operations.md R158). A row is the end of a completing POLL and runs nowhere else: no request word selects it and no agent may issue it (30_encoding.md R82). notes/assumptions/8.md, 10.md, 16.md. -/

namespace Sys2Proof.Machine

/-- A Detection Code runs through DECODE and DEBOUNCE (R136, R146, R158); such a code exists only once `READY = 1`. -/
def runCode (code : Code) (s : State) : Host.Outcome State Fault Refusal :=
  whenReady s (.next (concludeBlock code s))

/-- `DIGIT_1`, code 0x11 (R78, R136). -/
def execDigit1 (s : State) : Host.Outcome State Fault Refusal := runCode 0x11#7 s

/-- `DIGIT_2`, code 0x21 (R78, R136). -/
def execDigit2 (s : State) : Host.Outcome State Fault Refusal := runCode 0x21#7 s

/-- `DIGIT_3`, code 0x41 (R78, R136). -/
def execDigit3 (s : State) : Host.Outcome State Fault Refusal := runCode 0x41#7 s

/-- `DIGIT_4`, code 0x12 (R78, R136). -/
def execDigit4 (s : State) : Host.Outcome State Fault Refusal := runCode 0x12#7 s

/-- `DIGIT_5`, code 0x22 (R78, R136). -/
def execDigit5 (s : State) : Host.Outcome State Fault Refusal := runCode 0x22#7 s

/-- `DIGIT_6`, code 0x42 (R78, R136). -/
def execDigit6 (s : State) : Host.Outcome State Fault Refusal := runCode 0x42#7 s

/-- `DIGIT_7`, code 0x14 (R78, R136). -/
def execDigit7 (s : State) : Host.Outcome State Fault Refusal := runCode 0x14#7 s

/-- `DIGIT_8`, code 0x24 (R78, R136). -/
def execDigit8 (s : State) : Host.Outcome State Fault Refusal := runCode 0x24#7 s

/-- `DIGIT_9`, code 0x44 (R78, R136). -/
def execDigit9 (s : State) : Host.Outcome State Fault Refusal := runCode 0x44#7 s

/-- `DIGIT_STAR`, code 0x18 (R78, R136). -/
def execDigitStar (s : State) : Host.Outcome State Fault Refusal := runCode 0x18#7 s

/-- `DIGIT_0`, code 0x28 (R78, R136). -/
def execDigit0 (s : State) : Host.Outcome State Fault Refusal := runCode 0x28#7 s

/-- `DIGIT_HASH`, code 0x48 (R78, R136). -/
def execDigitHash (s : State) : Host.Outcome State Fault Refusal := runCode 0x48#7 s

end Sys2Proof.Machine
end

