-- ==== Sys2Proof/Machine/Ingestion.lean ====
section
/-! DEFINITION. Sample ingestion: SUBMIT (40_sample_ingestion.md R90 to R94). -/

namespace Sys2Proof.Machine

/-- The effect of `SUBMIT raw` (R91): append at `CNT` while the buffer has room, else drop silently. -/
def ingest (raw : Word16) (s : State) : State :=
  if s.cnt < s.cfg.blockSize then
    (s.setBuf (Memory.write s.buf s.cnt raw)).setCounters (s.cnt + 1) s.idx
  else s

/-- `SUBMIT raw` (R91). Admission: `READY = 1` (R94) and the reserved bits zero (R73, R81). -/
def execSubmit (raw : Word16) (s : State) : Host.Outcome State Fault Refusal :=
  whenReady s (if rawFits s.cfg.sampleW raw then .next (ingest raw s) else .refused .reservedBits)

end Sys2Proof.Machine
end

