-- ==== Sys2Proof/Machine/Serve.lean ====
section
/-! DEFINITION. How a presented request is served: the choice among pending requests, decoding, the agent check, execution (20_memory.md R57, R64; 30_encoding.md R71, R81). -/

namespace Sys2Proof.Machine

/-- Agent `a` issues the operation `i` (R71, R174 `WrongAgent`). -/
def issue (a : Agent) (i : Instr) (s : State) : Host.Outcome State Fault Refusal :=
  if permitted a i then exec i s else .refused .wrongAgent

/-- Agent `a` presents the request word `w`: an illegal word is refused as `ReservedBits` (R81, R174). -/
def serve (a : Agent) (w : Req) (s : State) : Host.Outcome State Fault Refusal :=
  match decodeRequest s.cfg.sampleW w with
  | .ok i => issue a i s
  | .error _ => .refused .reservedBits

/-- The request served next, with the state it leaves pending. Each agent's requests keep their order (R57); where
both agents have one, the free value `Config.producerFirst` picks (R64). -/
def nextRequest (s : State) : Option (Agent × Req × State) :=
  match s.producer, s.consumer with
  | [], [] => none
  | w :: ps, [] => some (.producer, w, s.setRequests ps [] s.turn)
  | [], w :: cs => some (.consumer, w, s.setRequests [] cs s.turn)
  | v :: ps, w :: cs =>
    if Config.producerFirst s.unitId s.turn then some (.producer, v, s.setRequests ps (w :: cs) (s.turn + 1))
    else some (.consumer, w, s.setRequests (v :: ps) cs (s.turn + 1))

/-- Serve one pending request; with none pending the block holds its state (R182). -/
def serveNext (s : State) : Host.Outcome State Fault Refusal :=
  match nextRequest s with
  | none => .next s
  | some (a, w, t) => serve a w t

/-! ### Presenting a word of the opcode table -/

/-- Every entry of the buffer at mid-scale, whose centered sample is 0 (R104). -/
def midScaleBlock (c : Config) : Memory :=
  (List.range c.blockSize).map fun j => (j, BitVec.ofNat 16 (2 ^ (c.sampleW - 1)))

/-- The block as it stands when its last `POLL` is about to hand the Detection Code `code` to DECODE, with that `POLL`
pending alone: a full buffer, one sample left, and delay registers from which that sample, of value 0, leaves
`D1[k] = 32767` in exactly the resonators whose bit is set. A Detection Code reaches DECODE in no other way (R33, R82).
Where `FINAL_SHIFT` is so wide (over 28) that no such register exceeds a Threshold of 1, another code results:
notes/assumptions/9.md. -/
def atBlockEnd (code : Code) (s : State) : State :=
  (((((s.setDelays zeroLanes
      (Lanes.ofFn fun k => if code.getLsbD k then regWord (-32767) else 0)).setBuf
      (midScaleBlock s.cfg)).setCounters s.cfg.blockSize (s.cfg.blockSize - 1)).setThresh 1).setReady true).setRequests
    [] (reqWord 0b11#2 0 :: s.consumer) s.turn

/-- Present an opcode-table word so that it is served next: a `REQ18` word at the head of the queue of the agent
that may issue it (R71) with the other agent's queue empty, a `DCODE7` word as the Detection Code of the pending `POLL`
that completes a block. A number that is no word of the format cannot be presented. -/
def present (s : State) (nbits w : Nat) : State :=
  if (nbits + 7) / 8 = 1 then
    if w < 2 ^ 7 then atBlockEnd (BitVec.ofNat 7 w) s else s
  else if w < 2 ^ 18 then
    if reqOp (BitVec.ofNat 18 w) = 0b10#2 then s.setRequests (BitVec.ofNat 18 w :: s.producer) [] s.turn
    else s.setRequests [] (BitVec.ofNat 18 w :: s.consumer) s.turn
  else s

end Sys2Proof.Machine
end

