-- ==== Sys2Proof/Machine/Step.lean ====
section
/-! DEFINITION. One step of the machine: one whole operation, atomically (20_memory.md R57). -/

namespace Sys2Proof.Machine

/-- One step: next state, fault, or refusal. -/
def step (s : State) : Host.Outcome State Fault Refusal := serveNext s

/-- `s` with an opcode-table word presented so that the very next step serves it: notes/assumptions/5.md. -/
def State.withFetchWord (s : State) (nbits w : Nat) : State := present s nbits w

end Sys2Proof.Machine
end

