-- ==== Sys2Proof/Machine/Instances.lean ====
section
/-! DEFINITION. Several block instances: a product of independent copies (60_exceptions.md R184). -/

namespace Sys2Proof.Machine

/-- Several instances, each running or stopped by itself. -/
abbrev Instances := List (Host.Outcome State Fault Refusal)

/-- Instances with the given configurations right after hardware reset (R190), each with its own free value `ARB`. -/
def Instances.reset (cs : List Config) : Instances :=
  cs.mapIdx fun n c => .next { State.afterReset c with unitId := n }

/-- One step of instance `n`. An instance that has met a refusal or a fault stays there (R162, R174). That the OTHER
instances then go on is the model's reading of "two instances share nothing" (R184), which says nothing of a refusal:
DEDUCED, notes/assumptions/18.md. There is no instance beyond the list, and stepping none changes nothing. -/
def stepInstance (n : Nat) (ms : Instances) : Instances :=
  match ms[n]? with
  | some (.next s) => ms.set n (step s)
  | some (.fault _) => ms
  | some (.refused _) => ms
  | none => ms

end Sys2Proof.Machine
end

