-- ==== Sys2Proof/Machine/Listing.lean ====
section
/-! DEFINITION. Programs: listings of requests in a fixed serial order, the pseudo-instructions and their expansions, and the assembler's lines (30_encoding.md R83, R84). -/

namespace Sys2Proof.Machine

/-- One line of a listing: the issuing agent and the operation (R83). -/
abbrev Line := Agent × Instr

/-- `FEED raw`: `P: SUBMIT raw` then `C: POLL` (R84). -/
def feed (raw : Word16) : List Line := [(.producer, .submit raw), (.consumer, .poll)]

/-- `FEEDV r0 … rn` (R84). -/
def feedv (raws : List Word16) : List Line := raws.flatMap feed

/-- `SUBMITV r0 … rn` (R84). -/
def submitv (raws : List Word16) : List Line := raws.map fun raw => (.producer, .submit raw)

/-- `POLLN n` (R84). -/
def polln (n : Nat) : List Line := List.replicate n (.consumer, .poll)

/-- Run a listing top to bottom: the listed order is the serial order (R57, R83). A refused request ends the run (R162). -/
def runListing : List Line → State → Host.Outcome State Fault Refusal
  | [], s => .next s
  | l :: rest, s =>
    match issue l.1 l.2 s with
    | .next t => runListing rest t
    | .fault f => .fault f
    | .refused r => .refused r

/-- Serve presented request words in the given serial order (R57). -/
def serveAll : List (Agent × Req) → State → Host.Outcome State Fault Refusal
  | [], s => .next s
  | l :: rest, s =>
    match serve l.1 l.2 s with
    | .next t => serveAll rest t
    | .fault f => .fault f
    | .refused r => .refused r

/-! ### The assembler's lines. Blanks and tabs separate tokens: notes/assumptions/17.md. -/

/-- Add a character to the tokens of what follows it. -/
def pushChar (c : Char) : List (List Char) → List (List Char)
  | [] => [[c]]
  | t :: ts => (c :: t) :: ts

/-- The tokens of a line, its `; comment` dropped (R83). -/
def tokens (line : List Char) : List (List Char) :=
  ((line.takeWhile (· != ';')).foldr
    (fun c acc => if c == ' ' || c == '\t' then [] :: acc else pushChar c acc) [[]]).filter (fun t => !t.isEmpty)

/-- The value of a digit in a base up to 16. -/
def charValue (base : Nat) (c : Char) : Option Nat :=
  let v :=
    if '0' ≤ c ∧ c ≤ '9' then c.toNat - '0'.toNat
    else if 'a' ≤ c ∧ c ≤ 'f' then c.toNat - 'a'.toNat + 10
    else if 'A' ≤ c ∧ c ≤ 'F' then c.toNat - 'A'.toNat + 10
    else base
  if v < base then some v else none

/-- The number of a nonempty string of digits, most significant first, after the value so far. -/
def digitsValue (base : Nat) : Nat → List Char → Option Nat
  | acc, [] => some acc
  | acc, c :: cs =>
    match charValue base c with
    | some v => digitsValue base (acc * base + v) cs
    | none => none

/-- A decimal or `0x` hexadecimal integer, the notation R83 gives for the operand of `INIT`. For every other operand
(`raw`, and those of the pseudo-instructions) it is DESIGN CHOICE: notes/assumptions/17.md. -/
def parseNat : List Char → Option Nat
  | [] => none
  | '0' :: 'x' :: c :: cs => digitsValue 16 0 (c :: cs)
  | c :: cs => digitsValue 10 0 (c :: cs)

/-- A raw sample operand in `0..2^SAMPLE_W-1` (R83). R83 gives the number notation for `INIT` alone; that `raw` is
written in the same two notations is DESIGN CHOICE: notes/assumptions/17.md. -/
def parseRaw (sampleW : Nat) (t : List Char) : Option Word16 :=
  match parseNat t with
  | some n => if n < 2 ^ sampleW then some (BitVec.ofNat 16 n) else none
  | none => none

/-- All of a list of raw sample operands, or none. -/
def parseRaws (sampleW : Nat) : List (List Char) → Option (List Word16)
  | [] => some []
  | t :: ts =>
    match parseRaw sampleW t, parseRaws sampleW ts with
    | some r, some rs => some (r :: rs)
    | _, _ => none

/-- `P:` or `C:` (R83). -/
def parseAgent (t : List Char) : Option Agent :=
  if t = ['P', ':'] then some .producer else if t = ['C', ':'] then some .consumer else none

/-- A mnemonic with its operands (R83). -/
def parseOperation (sampleW : Nat) : List (List Char) → Option Instr
  | [m] =>
    if m = ['N', 'O', 'P'] then some .nop else if m = ['P', 'O', 'L', 'L'] then some .poll else none
  | [m, n] =>
    if m = ['I', 'N', 'I', 'T'] then
      match parseNat n with
      | some t => if 1 ≤ t ∧ t ≤ 65535 then some (.init (BitVec.ofNat 16 t)) else none
      | none => none
    else if m = ['S', 'U', 'B', 'M', 'I', 'T'] then (parseRaw sampleW n).map .submit
    else none
  | _ => none

/-- The tokens before a written response `-> …` (R83). -/
def beforeArrow (ts : List (List Char)) : List (List Char) := ts.takeWhile (· != ['-', '>'])

/-- The requests of one line of a listing, pseudo-instructions expanded (R83, R84); `none` for a line that is none. The
operands of the pseudo-instructions are read in the notation of `INIT`'s (DESIGN CHOICE): notes/assumptions/17.md. -/
def parseLine (sampleW : Nat) (line : List Char) : Option (List Line) :=
  match beforeArrow (tokens line) with
  | [] => some []
  | t :: ts =>
    if t = ['F', 'E', 'E', 'D'] then
      match ts with
      | [r] => (parseRaw sampleW r).map feed
      | _ => none
    else if t = ['F', 'E', 'E', 'D', 'V'] then
      if ts.isEmpty then none else (parseRaws sampleW ts).map feedv
    else if t = ['S', 'U', 'B', 'M', 'I', 'T', 'V'] then
      if ts.isEmpty then none else (parseRaws sampleW ts).map submitv
    else if t = ['P', 'O', 'L', 'L', 'N'] then
      match ts with
      | [n] => (parseNat n).map polln
      | _ => none
    else
      match parseAgent t, parseOperation sampleW ts with
      | some a, some i => some [(a, i)]
      | _, _ => none

end Sys2Proof.Machine
end

