-- ==== Sys2Proof/Safety.lean ====
section
/-! DEFINITION. What counts as a safe state and a safe run, which part of a state an agent can ever learn of, and the detector of one block as a function of its samples alone. Claims are stated in these terms. -/

namespace Sys2Proof.Safety

open Sys2Proof.Machine

/-- The invariant of the model: a well-formed configuration (R9); the buffer in canonical form with indexes and
samples in range (R32, R50); and, once `READY = 1`, the counters' ranges, every accepted entry present, and zero
delay registers at the start of a block (R26), and a positive Threshold (R28). -/
structure Inv (s : State) : Prop where
  config : configWf s.cfg = true
  canonical : Memory.wf s.buf = true
  indexes : ∀ e ∈ s.buf, e.1 < s.cfg.blockSize
  samples : ∀ e ∈ s.buf, e.2.toNat < 2 ^ s.cfg.sampleW
  counters : s.ready = true → s.idx ≤ s.cnt ∧ s.cnt ≤ s.cfg.blockSize ∧ s.idx < s.cfg.blockSize
  accepted : s.ready = true → ∀ i < s.cnt, (Memory.read s.buf i).isSome = true
  fresh : s.ready = true → s.idx = 0 → s.d1 = zeroLanes ∧ s.d2 = zeroLanes
  threshold : s.ready = true → s.thresh ≠ 0

/-- Two states that no later operation can tell apart: equal but for buffer entries that are not live (R32). -/
structure Agree (s t : State) : Prop where
  cfg : s.cfg = t.cfg
  d1 : s.d1 = t.d1
  d2 : s.d2 = t.d2
  cnt : s.cnt = t.cnt
  idx : s.idx = t.idx
  thresh : s.thresh = t.thresh
  latch : s.latch = t.latch
  ready : s.ready = t.ready
  producer : s.producer = t.producer
  consumer : s.consumer = t.consumer
  unitId : s.unitId = t.unitId
  turn : s.turn = t.turn
  responses : s.responses = t.responses
  live : ∀ i, s.idx ≤ i → i < s.cnt → Memory.read s.buf i = Memory.read t.buf i

/-- A request word is illegal, R81, said by its bits. -/
def IllegalWord (sampleW : Nat) (w : Req) : Prop :=
  ((w.toNat / 2 ^ 16 = 0 ∨ w.toNat / 2 ^ 16 = 3) ∧ w.toNat % 2 ^ 16 ≠ 0)
    ∨ (w.toNat / 2 ^ 16 = 2 ∧ 2 ^ sampleW ≤ w.toNat % 2 ^ 16)
    ∨ (w.toNat / 2 ^ 16 = 1 ∧ w.toNat % 2 ^ 16 = 0)

/-- The pair `(s[n], s[n-1])` of R108 after the next centered sample `x`. -/
def goertzelStep (mode : OvfMode) (coeff : Int) (s : Int × Int) (x : Int) : Int × Int :=
  (narrow16 mode (x + asr (coeff * s.1) 14 - s.2), s.1)

/-- `(s[N-1], s[N-2])` of R108 for the centered samples of one block, from `s[-1] = s[-2] = 0`. -/
def goertzel (mode : OvfMode) (coeff : Int) (xs : List Int) : Int × Int :=
  xs.foldl (goertzelStep mode coeff) (0, 0)

/-- The centered samples of raw ones (R104). -/
def centeredAll (c : Config) (raws : List Word16) : List Int :=
  raws.map fun raw => (raw.toNat : Int) - 2 ^ (c.sampleW - 1)

/-- The magnitude of one resonator over a block of raw samples (R120, R122, R123). -/
def blockMagnitude (c : Config) (coeff : Word16) (raws : List Word16) : Int :=
  let s := goertzel c.ovfMode coeff.toInt (centeredAll c raws)
  asr (wrapS c.accW (s.1 * s.1 + s.2 * s.2 - asr (coeff.toInt * s.1) 14 * s.2)) c.finalShift

/-- The Detection Code of a block: a function of its samples, the configuration and `THRESH` alone (R124, R126). -/
def blockCode (c : Config) (thresh : Word16) (raws : List Word16) : Code :=
  BitVec.ofNat 7
    (((List.finRange 7).map fun k =>
      if blockMagnitude c (c.coeff.get k) raws > (thresh.toNat : Int) then 2 ^ k.val else 0).sum)

/-- The first `n` entries of the buffer, in order. -/
def firstEntries (s : State) (n : Nat) : List Word16 := (List.range n).filterMap (Memory.read s.buf)

/-- The filter's own invariant: the delay registers of every resonator are `(s[n], s[n-1])` of R108 for the samples of
the current block that have been consumed, `BUF[0..IDX-1]`, whatever the schedule of the requests. -/
def Filtered (s : State) : Prop :=
  s.ready = true → ∀ k : Fin 7, ((s.d1.get k).toInt, (s.d2.get k).toInt) =
    goertzel s.cfg.ovfMode (s.cfg.coeff.get k).toInt (centeredAll s.cfg (firstEntries s s.idx))

/-! ### Schedules of one block: any order of the Producer's SUBMITs and the Consumer's POLLs -/

/-- A line of such a schedule: a POLL, or a SUBMIT of a legal sample. -/
def SampleLine (sampleW : Nat) (l : Line) : Prop :=
  l = (.consumer, .poll) ∨ ∃ raw : Word16, raw.toNat < 2 ^ sampleW ∧ l = (.producer, .submit raw)

/-- The sample a line submits, if it submits one. -/
def rawOf (l : Line) : Option Word16 :=
  match l.2 with
  | .submit raw => some raw
  | _ => none

/-- The samples a schedule submits, in order. -/
def submitted (ls : List Line) : List Word16 := ls.filterMap rawOf

/-- How many POLLs a schedule has. -/
def pollCount (ls : List Line) : Nat := (ls.filter fun l => l = (Agent.consumer, Instr.poll)).length

/-- How many samples have been accepted and how many consumed, after one more line (R91, R158): a POLL consumes one
that waits, a SUBMIT is accepted while there is room. -/
def countLine (blockSize : Nat) (p : Nat × Nat) (l : Line) : Nat × Nat :=
  if l = (Agent.consumer, Instr.poll) then (if p.2 < p.1 then (p.1, p.2 + 1) else p)
  else if p.1 < blockSize then (p.1 + 1, p.2) else p

/-- The samples accepted and consumed by a schedule that starts on an empty block. As long as fewer than `BLOCK_SIZE`
are consumed no POLL has completed the block. -/
def sampleCounts (blockSize : Nat) (ls : List Line) : Nat × Nat := ls.foldl (countLine blockSize) (0, 0)

/-- The state without the two agents' pending requests. -/
def bare (s : State) : State := s.setRequests [] [] 0

/-- The words of one agent in a serial order of requests. -/
def wordsOf (a : Agent) (ws : List (Agent × Req)) : List Req :=
  (ws.filter fun l => l.1 = a).map Prod.snd

/-- The next state of an outcome, if it is one. -/
def nextState? (o : Host.Outcome State Fault Refusal) : Option State :=
  match o with
  | .next t => some t
  | .fault _ => none
  | .refused _ => none

/-- The refusal of an outcome, if it is one. -/
def refusal? (o : Host.Outcome State Fault Refusal) : Option Refusal :=
  match o with
  | .next _ => none
  | .fault _ => none
  | .refused r => some r

end Sys2Proof.Safety
end

