-- ==== Sys2Proof/Certificates/Slice0/Obligations.lean ====
section
/-! DEFINITION. The statements for the provers, each a rule of spec/ or what follows from several. A statement that rests on a choice of the model says so and names the log entry. -/

open Sys2Proof Sys2Proof.Machine Sys2Proof.Safety

/-! ### Encodings -/

/-- Every well-formed instruction of the opcode table decodes from its own word, with every operand at every value
its encoding admits, for every `SAMPLE_W` (R70 to R74, R78). -/
def Obligations.DecodeInvertsEncode : Prop :=
  ∀ (n : Nat) (i : Instr), i.wf n = true → decodeWord n (encode i) = .ok i

/-- A word the decoder accepts is exactly the encoding of the instruction it stands for: no bit is dropped and each
word has one meaning (R70 to R74, R78). -/
def Obligations.EncodeInvertsDecode : Prop :=
  ∀ (n : Nat) (w : InstrWord) (i : Instr), decodeWord n w = .ok i → encode i = w

/-- The request words that stand for a well-formed operation are exactly those R81 does not call illegal. -/
def Obligations.LegalRequestWords : Prop :=
  ∀ (n : Nat) (w : Req),
    (∃ i, decodeRequest n w = .ok i ∧ i.wf n = true) ↔ ¬ IllegalWord n w

/-- The request words of the table of 95_test_vectors.md section 3.8, and the twelve codes of R78, decode as written
there. -/
def Obligations.WordsOfTheSpecDecode : Prop :=
  decodeRequest 10 0b000000000000000000#18 = .ok .nop
    ∧ decodeRequest 10 0b010000000000000001#18 = .ok (.init 1)
    ∧ decodeRequest 10 0b010000000001100100#18 = .ok (.init 100)
    ∧ decodeRequest 10 0b011111111111111111#18 = .ok (.init 65535)
    ∧ decodeRequest 10 0b100000000000000000#18 = .ok (.submit 0)
    ∧ decodeRequest 10 0b100000001000000000#18 = .ok (.submit 512)
    ∧ decodeRequest 10 0b100000001111111111#18 = .ok (.submit 1023)
    ∧ decodeRequest 10 0b110000000000000000#18 = .ok .poll
    ∧ decodeRequest 10 0b000000000000000001#18 = .error .reservedBits
    ∧ decodeRequest 10 0b100000010000000000#18 = .error .reservedBits
    ∧ decodeRequest 10 0b111111111111111111#18 = .error .reservedBits
    ∧ decodeCode 0b0010001#7 = .ok .digit1
    ∧ decodeCode 0b0100001#7 = .ok .digit2
    ∧ decodeCode 0b1000001#7 = .ok .digit3
    ∧ decodeCode 0b0010010#7 = .ok .digit4
    ∧ decodeCode 0b0100010#7 = .ok .digit5
    ∧ decodeCode 0b1000010#7 = .ok .digit6
    ∧ decodeCode 0b0010100#7 = .ok .digit7
    ∧ decodeCode 0b0100100#7 = .ok .digit8
    ∧ decodeCode 0b1000100#7 = .ok .digit9
    ∧ decodeCode 0b0011000#7 = .ok .digitStar
    ∧ decodeCode 0b0101000#7 = .ok .digit0
    ∧ decodeCode 0b1001000#7 = .ok .digitHash

/-- The 8-bit codes of R76, and that no operation ever gives a response of any other value. -/
def Obligations.ResponseWordsAreTheSymbolCodes : Prop :=
  rspWord none = 0x00 ∧ rspWord (some .key0) = 0x30 ∧ rspWord (some .key1) = 0x31 ∧ rspWord (some .key2) = 0x32
    ∧ rspWord (some .key3) = 0x33 ∧ rspWord (some .key4) = 0x34 ∧ rspWord (some .key5) = 0x35
    ∧ rspWord (some .key6) = 0x36 ∧ rspWord (some .key7) = 0x37 ∧ rspWord (some .key8) = 0x38
    ∧ rspWord (some .key9) = 0x39 ∧ rspWord (some .star) = 0x2A ∧ rspWord (some .hash) = 0x23
    ∧ ∀ i s t, exec i s = .next t →
        t.responses = s.responses
        ∨ ∃ r ∈ [0x00#8, 0x30#8, 0x31#8, 0x32#8, 0x33#8, 0x34#8, 0x35#8, 0x36#8, 0x37#8, 0x38#8, 0x39#8, 0x2A#8, 0x23#8],
          t.responses = s.responses ++ [r]

/-! ### The step -/

/-- Where one agent alone has a request and the word decodes to an operation of that agent, a step is `exec` of that
operation on the state without the request. The queues are the model's (log 5). -/
def Obligations.StepRunsTheOnlyRequest : Prop :=
  ∀ (s : State) (w : Req) (i : Instr), decodeRequest s.cfg.sampleW w = .ok i →
    (∀ ps, s.producer = w :: ps → s.consumer = [] → permitted .producer i = true →
      step s = exec i { s with producer := ps })
    ∧ (∀ cs, s.producer = [] → s.consumer = w :: cs → permitted .consumer i = true →
      step s = exec i { s with consumer := cs })

/-- Where both agents have a request, a step serves the Producer's or the Consumer's, leaving the other pending; which
one is the free value `Config.producerFirst` of this instance (R64; logs 5 and 6), so both orders are left open. -/
def Obligations.CoincidentRequestsInEitherOrder : Prop :=
  ∀ (s : State) (v w : Req) (ps cs : List Req), s.producer = v :: ps → s.consumer = w :: cs →
    step s =
      if Config.producerFirst s.unitId s.turn then serve .producer v { s with producer := ps, turn := s.turn + 1 }
      else serve .consumer w { s with consumer := cs, turn := s.turn + 1 }

/-- When no request arrives the block holds its state (R182). -/
def Obligations.IdleStepHoldsTheState : Prop :=
  ∀ s : State, s.producer = [] → s.consumer = [] → step s = .next s

/-- A step that serves the POLL of a block's last sample runs the Detection Code `c` the block gives: where `c` is an
opcode-table row, the step is `exec` of that row on the state after FINALIZE and the clearing of the counters (R158,
R160). Whatever the code, row or not, the configured table decides: a listed code latches its symbol and reports it
unless it was latched already, an unlisted one clears `LATCH` (R80, R136, R146). That a row stands for this part of a
POLL is the model's reading (log 8). -/
def Obligations.StepRunsAPresentedCode : Prop :=
  ∀ (s : State) (raw : Word16) (cs : List Req), s.producer = [] → s.consumer = 0x30000 :: cs →
    configWf s.cfg = true → s.ready = true → s.idx < s.cnt → s.idx + 1 = s.cfg.blockSize →
    Memory.read s.buf s.idx = some raw →
    let c := detectionCode (filterSample raw s)
    let u := { s with
      d1 := ⟨0, 0, 0, 0, 0, 0, 0⟩
      d2 := ⟨0, 0, 0, 0, 0, 0, 0⟩
      cnt := 0
      idx := 0
      consumer := cs }
    (∀ i, decodeCode c = .ok i → step s = exec i u)
    ∧ (∀ d, (c, d) ∈ s.cfg.dtab → s.latch = some d →
        step s = .next { u with responses := s.responses ++ [0x00] })
    ∧ (∀ d, (c, d) ∈ s.cfg.dtab → s.latch ≠ some d →
        step s = .next { u with latch := some d, responses := s.responses ++ [symbolCode d] })
    ∧ ((∀ d, (c, d) ∉ s.cfg.dtab) →
        step s = .next { u with latch := none, responses := s.responses ++ [0x00] })

/-- DECODE and DEBOUNCE run only inside a POLL that completes a block (R3, R82): no request word selects a Detection
Code's row and no agent may issue one; a step changes `LATCH` only by an INIT or such a POLL of the Consumer, and
responds, once, only by a POLL of the Consumer. -/
def Obligations.DecodeAndDebounceRunOnlyInsidePoll : Prop :=
  (∀ n w i c, decodeRequest n w = .ok i → encode i ≠ .code c)
    ∧ (∀ a i c, encode i = .code c → permitted a i = false)
    ∧ ∀ s t : State, step s = .next t →
      (t.latch ≠ s.latch → ∃ w, s.consumer = w :: t.consumer ∧ s.producer = t.producer
        ∧ (w.toNat / 2 ^ 16 = 1 ∨ (w = 0x30000 ∧ s.idx < s.cnt ∧ s.idx + 1 = s.cfg.blockSize)))
      ∧ (t.responses = s.responses
        ∨ (s.consumer = 0x30000 :: t.consumer ∧ s.producer = t.producer ∧ ∃ r, t.responses = s.responses ++ [r]))

/-- The closed list of R174: a presented request word is refused exactly when the configuration is not well formed,
the word is illegal, the agent is the wrong one, `READY = 0` under SUBMIT or POLL, or an INIT meets a block in flight;
and the reason a refusal names is true of the request, each row of R174's table. -/
def Obligations.RefusalsAreTheClosedList : Prop :=
  ∀ (a : Agent) (w : Req) (s : State),
    ((∃ r, serve a w s = .refused r) ↔
      (configWf s.cfg = false
        ∨ IllegalWord s.cfg.sampleW w
        ∨ (a = .producer ∧ w.toNat / 2 ^ 16 ≠ 2)
        ∨ (a = .consumer ∧ w.toNat / 2 ^ 16 = 2)
        ∨ (s.ready = false ∧ 2 ≤ w.toNat / 2 ^ 16)
        ∨ (s.ready = true ∧ (s.cnt ≠ 0 ∨ s.idx ≠ 0) ∧ w.toNat / 2 ^ 16 = 1)))
    ∧ ∀ r, serve a w s = .refused r →
        (r = .badConfig ∧ configWf s.cfg = false)
        ∨ (r = .wrongAgent ∧ ((a = .producer ∧ w.toNat / 2 ^ 16 ≠ 2) ∨ (a = .consumer ∧ w.toNat / 2 ^ 16 = 2)))
        ∨ (r = .reservedBits ∧ IllegalWord s.cfg.sampleW w ∧ w.toNat / 2 ^ 16 ≠ 1)
        ∨ (r = .badThreshold ∧ w.toNat / 2 ^ 16 = 1 ∧ w.toNat % 2 ^ 16 = 0)
        ∨ (r = .notReady ∧ s.ready = false ∧ 2 ≤ w.toNat / 2 ^ 16)
        ∨ (r = .initInFlight ∧ s.ready = true ∧ (s.cnt ≠ 0 ∨ s.idx ≠ 0) ∧ w.toNat / 2 ^ 16 = 1)

/-! ### The request operations -/

/-- NOP (R155): its word, its agent, and that it completes in every state, also while `READY = 0`, changing nothing. -/
def Obligations.NopChangesNothing : Prop :=
  encode .nop = .req 0x00000 ∧ permitted .consumer .nop = true
    ∧ ∀ s : State, configWf s.cfg = true → exec .nop s = .next s

/-- INIT (R156): its word, and that where R157 admits it, it completes, writing every element but `BUF`. -/
def Obligations.InitSetsEverythingButTheBuffer : Prop :=
  (∀ t : Word16, encode (.init t) = .req (0x10000 + t.setWidth 18) ∧ permitted .consumer (.init t) = true)
    ∧ ∀ (s : State) (t : Word16), configWf s.cfg = true → t ≠ 0 →
        (s.ready = false ∨ (s.cnt = 0 ∧ s.idx = 0)) →
        exec (.init t) s = .next { s with
          thresh := t
          d1 := ⟨0, 0, 0, 0, 0, 0, 0⟩
          d2 := ⟨0, 0, 0, 0, 0, 0, 0⟩
          latch := none
          cnt := 0
          idx := 0
          ready := true }

/-- When INIT is admitted (R157): (a) before the first INIT; (b) between blocks, where by the invariant everything but
`THRESH` and `LATCH` already holds the value INIT gives it; (c) not with a block in flight; (d) not with `t = 0`. Where (c) and (d) meet it is refused, for a reason left open (R176). -/
def Obligations.InitAdmission : Prop :=
  ∀ (s : State) (t : Word16), configWf s.cfg = true →
    (s.ready = false → t ≠ 0 → ∃ u, exec (.init t) s = .next u)
    ∧ (s.ready = true → s.cnt = 0 → s.idx = 0 → t ≠ 0 →
        ∃ u, exec (.init t) s = .next u ∧ u.thresh = t ∧ u.latch = none)
    ∧ (Inv s → s.ready = true → s.cnt = 0 → s.idx = 0 → t ≠ 0 →
        exec (.init t) s = .next { s with thresh := t, latch := none })
    ∧ (s.ready = true → (s.cnt ≠ 0 ∨ s.idx ≠ 0) → t ≠ 0 → exec (.init t) s = .refused .initInFlight)
    ∧ ((s.ready = false ∨ (s.cnt = 0 ∧ s.idx = 0)) → exec (.init 0) s = .refused .badThreshold)
    ∧ ∃ r, exec (.init 0) s = .refused r

/-- SUBMIT (R91): its word, its admission, that it completes, that while `CNT < BLOCK_SIZE` it stores the raw sample
at index `CNT` and adds 1 to `CNT`, and that otherwise it changes nothing. The store goes to index `CNT` and every
other index reads as before. Where two reasons for refusal meet, which one is reported is left open (R176). -/
def Obligations.SubmitAppendsOrDrops : Prop :=
  (∀ raw : Word16, encode (.submit raw) = .req (0x20000 + raw.setWidth 18)
      ∧ permitted .producer (.submit raw) = true ∧ permitted .consumer (.submit raw) = false)
    ∧ ∀ (s : State) (raw : Word16), configWf s.cfg = true →
        (s.ready = false → raw.toNat < 2 ^ s.cfg.sampleW → exec (.submit raw) s = .refused .notReady)
        ∧ (s.ready = false → ∃ r, exec (.submit raw) s = .refused r)
        ∧ (s.ready = true → ¬ raw.toNat < 2 ^ s.cfg.sampleW → exec (.submit raw) s = .refused .reservedBits)
        ∧ (s.ready = true → raw.toNat < 2 ^ s.cfg.sampleW → s.cnt < s.cfg.blockSize →
            ∃ m, exec (.submit raw) s = .next { s with buf := m, cnt := s.cnt + 1 }
              ∧ Memory.read m s.cnt = some raw
              ∧ ∀ a, a ≠ s.cnt → Memory.read m a = Memory.read s.buf a)
        ∧ (s.ready = true → raw.toNat < 2 ^ s.cfg.sampleW → ¬ s.cnt < s.cfg.blockSize →
            exec (.submit raw) s = .next s)

/-- POLL that finds no sample (R158): it completes, responds `none`, and changes nothing. -/
def Obligations.PollWithoutASample : Prop :=
  encode .poll = .req 0x30000 ∧ permitted .consumer .poll = true
    ∧ ∀ s : State, configWf s.cfg = true → s.ready = true → ¬ s.idx < s.cnt →
        exec .poll s = .next { s with responses := s.responses ++ [0x00] }

/-- POLL that takes a sample which is not the block's last (R106, R108): it completes; every `D2[k]` takes the old
`D1[k]`, every `D1[k]` the narrowed `x + asr(COEFF[k]*D1[k], 14) - D2[k]` of the old registers; `IDX + 1`; the
response is `none`; everything else, the buffer too, stands. -/
def Obligations.PollTakesOneSample : Prop :=
  ∀ (s : State) (raw : Word16), configWf s.cfg = true → s.ready = true → s.idx < s.cnt →
    s.idx < s.cfg.blockSize → s.idx + 1 ≠ s.cfg.blockSize → Memory.read s.buf s.idx = some raw →
    exec .poll s = .next { s with
      d1 := Lanes.ofFn fun k => BitVec.ofInt 16 (narrow16 s.cfg.ovfMode
        (((raw.toNat : Int) - 2 ^ (s.cfg.sampleW - 1))
          + asr ((s.cfg.coeff.get k).toInt * (s.d1.get k).toInt) 14 - (s.d2.get k).toInt))
      d2 := s.d1
      idx := s.idx + 1
      responses := s.responses ++ [0x00] }

/-- POLL that takes the last sample of a block (R110, R121, R126, R158): it completes. With `y1` the new `D1[k]` and
`y2` the old one, bit `k` of the Detection Code is set exactly when the magnitude exceeds `THRESH`; the delay
registers and both counters are 0, `LATCH` is the decoded digit, and the response is that digit unless `LATCH` held it
already. Everything else, the buffer too, stands. -/
def Obligations.PollCompletesABlock : Prop :=
  ∀ (s : State) (raw : Word16), configWf s.cfg = true → s.ready = true → s.idx < s.cnt →
    s.idx + 1 = s.cfg.blockSize → Memory.read s.buf s.idx = some raw →
    ∃ code : Code,
      (∀ k : Fin 7,
        let c := (s.cfg.coeff.get k).toInt
        let y2 := (s.d1.get k).toInt
        let y1 := narrow16 s.cfg.ovfMode
          (((raw.toNat : Int) - 2 ^ (s.cfg.sampleW - 1)) + asr (c * y2) 14 - (s.d2.get k).toInt)
        code.getLsbD k =
          decide (asr (wrapS s.cfg.accW (y1 * y1 + y2 * y2 - asr (c * y1) 14 * y2)) s.cfg.finalShift
            > (s.thresh.toNat : Int)))
      ∧ exec .poll s = .next { s with
          d1 := ⟨0, 0, 0, 0, 0, 0, 0⟩
          d2 := ⟨0, 0, 0, 0, 0, 0, 0⟩
          idx := 0
          cnt := 0
          latch := decodeDigit s.cfg code
          responses := s.responses ++
            [if decodeDigit s.cfg code = s.latch then 0x00 else rspWord (decodeDigit s.cfg code)] }

/-- The twelve `DCODE7` rows (DIGIT_0 to DIGIT_9, DIGIT_STAR, DIGIT_HASH) complete whenever `READY = 1`: the row's
code goes through DECODE (R136) and its result through DEBOUNCE (R146), which is the response; while `READY = 0` they
are refused. That such a row runs outside a POLL, and its refusal, are the model's reading (logs 8 and 10). -/
def Obligations.DigitRowsDecodeAndDebounce : Prop :=
  ∀ (i : Instr) (c : Code) (s : State), encode i = .code c → configWf s.cfg = true →
    (s.ready = true → ∀ d, (c, d) ∈ s.cfg.dtab → s.latch = some d →
      exec i s = .next { s with responses := s.responses ++ [0x00] })
    ∧ (s.ready = true → ∀ d, (c, d) ∈ s.cfg.dtab → s.latch ≠ some d →
      exec i s = .next { s with latch := some d, responses := s.responses ++ [rspWord (some d)] })
    ∧ (s.ready = true → (∀ d, (c, d) ∉ s.cfg.dtab) →
      exec i s = .next { s with latch := none, responses := s.responses ++ [0x00] })
    ∧ (s.ready = false → exec i s = .refused .notReady)

/-- Before the first INIT only NOP and INIT are admitted; `READY` is 0 after hardware reset, set by INIT, and cleared
by no step (R30). -/
def Obligations.ReadyGatesAndStays : Prop :=
  State.reset.ready = false
    ∧ (∀ (i : Instr) (s t : State), s.ready = false → exec i s = .next t →
        (i = .nop ∧ t.ready = false) ∨ (∃ x, i = .init x ∧ t.ready = true))
    ∧ (∀ s t : State, s.ready = true → step s = .next t → t.ready = true)

/-- SUBMIT and POLL before the first INIT are refused, as NotReady (R94, R161) where no other reason of R174 applies; a
SUBMIT operand with a reserved bit is refused for a reason left open (R176). -/
def Obligations.NotReadyIsRefused : Prop :=
  ∀ s : State, configWf s.cfg = true → s.ready = false →
    exec .poll s = .refused .notReady
    ∧ (∀ raw : Word16, raw.toNat < 2 ^ s.cfg.sampleW → exec (.submit raw) s = .refused .notReady)
    ∧ ∀ raw, ∃ r, exec (.submit raw) s = .refused r

/-! ### Whole-machine rules -/

/-- How the sequencing pair moves under every operation (R23). -/
def Obligations.SequencingPairMoves : Prop :=
  ∀ (i : Instr) (s t : State), exec i s = .next t →
    (i = .nop → t.cnt = s.cnt ∧ t.idx = s.idx)
    ∧ (∀ x, i = .init x → t.cnt = 0 ∧ t.idx = 0)
    ∧ (∀ raw, i = .submit raw →
        (s.cnt < s.cfg.blockSize → t.cnt = s.cnt + 1 ∧ t.idx = s.idx) ∧ (¬ s.cnt < s.cfg.blockSize → t = s))
    ∧ (i = .poll →
        (¬ s.idx < s.cnt → t = { s with responses := s.responses ++ [0x00] })
        ∧ (s.idx < s.cnt → s.idx + 1 ≠ s.cfg.blockSize → t.idx = s.idx + 1 ∧ t.cnt = s.cnt)
        ∧ (s.idx < s.cnt → s.idx + 1 = s.cfg.blockSize → t.idx = 0 ∧ t.cnt = 0))

/-- The frame of every instruction, element by element as the "Written by" column of R20 has it, with the read-only
configuration (R31) and the model's own queues. A `DCODE7` row writes `LATCH` as DEBOUNCE does (log 8). -/
def Obligations.EveryElementHasItsWriters : Prop :=
  ∀ (i : Instr) (s t : State), exec i s = .next t →
    t.cfg = s.cfg
    ∧ ((t.d1 ≠ s.d1 ∨ t.d2 ≠ s.d2) → (∃ x, i = .init x) ∨ (i = .poll ∧ s.idx < s.cnt))
    ∧ (∀ a, Memory.read t.buf a ≠ Memory.read s.buf a →
        ∃ raw, i = .submit raw ∧ a = s.cnt ∧ s.cnt < s.cfg.blockSize)
    ∧ (t.cnt ≠ s.cnt →
        (∃ x, i = .init x) ∨ (∃ raw, i = .submit raw) ∨ (i = .poll ∧ s.idx < s.cnt ∧ s.idx + 1 = s.cfg.blockSize))
    ∧ (t.idx ≠ s.idx → (∃ x, i = .init x) ∨ (i = .poll ∧ s.idx < s.cnt))
    ∧ (t.thresh ≠ s.thresh → i = .init t.thresh)
    ∧ (t.latch ≠ s.latch →
        (∃ x, i = .init x) ∨ (i = .poll ∧ s.idx < s.cnt ∧ s.idx + 1 = s.cfg.blockSize) ∨ ∃ c, encode i = .code c)
    ∧ (t.ready ≠ s.ready → ∃ x, i = .init x)
    ∧ t.producer = s.producer ∧ t.consumer = s.consumer ∧ t.unitId = s.unitId ∧ t.turn = s.turn

/-- NOP, INIT and SUBMIT return nothing; a POLL returns exactly one response word, a symbol's code or `0x00` for `none`
(R75). -/
def Obligations.OnlyPollsRespond : Prop :=
  ∀ (i : Instr) (s t : State), exec i s = .next t →
    ((i = .nop ∨ (∃ x, i = .init x) ∨ ∃ raw, i = .submit raw) → t.responses = s.responses)
    ∧ (i = .poll → ∃ ev : Option Symbol, t.responses = s.responses ++ [rspWord ev])

/-- A response other than `none` comes only from the POLL that takes the last sample of a block, and with it `LATCH`
changes to the symbol reported (R159, R177). -/
def Obligations.EventsOnlyAtBlockEnds : Prop :=
  ∀ (s t : State) (r : Rsp), exec .poll s = .next t → t.responses = s.responses ++ [r] → r ≠ 0x00 →
    s.idx < s.cnt ∧ s.idx + 1 = s.cfg.blockSize
      ∧ ∃ d, t.latch = some d ∧ s.latch ≠ some d ∧ r = symbolCode d

/-- Over a sequence of Detection Codes an event is emitted at a code exactly when its DECODE result is a symbol and
differs from the result before it, the first compared with `LATCH` (R148). -/
def Obligations.EventsAtChangesOfTheDecodedDigit : Prop :=
  ∀ (codes : List Code) (s : State),
    (codes.foldl (fun u c => concludeBlock c u) s).responses =
      s.responses ++
        List.zipWith (fun before now => if now = before then 0x00 else rspWord now)
          (s.latch :: codes.map (decodeDigit s.cfg)) (codes.map (decodeDigit s.cfg))

/-- SUBMIT and POLL served in the two orders give the same state except in exactly the two situations of R64: (a) no
sample waits and the buffer has room; (b) the buffer is full and the POLL takes the block's last sample. -/
def Obligations.OrderMattersInTwoSituations : Prop :=
  ∀ (s : State) (raw : Word16), Inv s → s.ready = true → raw.toNat < 2 ^ s.cfg.sampleW →
    (runListing [(.producer, .submit raw), (.consumer, .poll)] s
        = runListing [(.consumer, .poll), (.producer, .submit raw)] s ↔
      ¬ ((s.idx = s.cnt ∧ s.cnt < s.cfg.blockSize)
        ∨ (s.cnt = s.cfg.blockSize ∧ s.idx + 1 = s.cfg.blockSize)))

/-- Any run of steps is one serial order of whole requests: a merge of a first part of each agent's queue, each in its
own order, served one after the other (R57). The queues are the model's (log 5). -/
def Obligations.RunsAreMergesOfTheAgentsRequests : Prop :=
  ∀ (n : Nat) (s t : State), Sys2Proof.core.run n s = .next t →
    ∃ ws : List (Agent × Req),
      wordsOf .producer ws ++ t.producer = s.producer
      ∧ wordsOf .consumer ws ++ t.consumer = s.consumer
      ∧ serveAll ws (bare s) = .next (bare t)

/-! ### Invariants and safety -/

/-- The invariant holds right after hardware reset, for every well-formed configuration. `READY = 0` there, so no
clause rests on the values the model chose for the unspecified elements but that of the empty buffer (logs 2 and 3). -/
def Obligations.ResetMeetsTheInvariant : Prop :=
  (Inv State.reset ∧ Filtered State.reset)
    ∧ ∀ c : Config, configWf c = true → Inv (State.afterReset c) ∧ Filtered (State.afterReset c)

/-- Every step keeps the invariant: the counters in their ranges, the buffer in canonical form with every accepted
entry present and in range, the registers 0 at the start of a block, the Threshold positive (R26). -/
def Obligations.EveryStepKeepsTheInvariant : Prop :=
  ∀ s t : State, Inv s → step s = .next t → Inv t

/-- The filter's invariant, for every schedule of the two agents' requests (R57, R108): where the delay registers of
every resonator are `(s[n], s[n-1])` of the recurrence for the consumed samples `BUF[0..IDX-1]`, they are so after every
step. -/
def Obligations.EveryStepKeepsTheFilter : Prop :=
  ∀ s t : State, Inv s → Filtered s → step s = .next t → Filtered t

/-- The POLL that completes a block decides by the block's samples in the buffer, the configuration and `THRESH` alone
(R124, R126), however the requests that filled it were ordered: it completes, `LATCH` is the DECODE result of the
Detection Code of `BUF[0..BLOCK_SIZE-1]`, and every delay register is 0. -/
def Obligations.ACompletingPollReportsTheBufferedBlock : Prop :=
  ∀ s : State, Inv s → Filtered s → s.ready = true → s.idx < s.cnt → s.idx + 1 = s.cfg.blockSize →
    let raws := firstEntries s s.cfg.blockSize
    let dg := decodeDigit s.cfg (blockCode s.cfg s.thresh raws)
    raws.length = s.cfg.blockSize
    ∧ exec .poll s = .next { s with
        d1 := ⟨0, 0, 0, 0, 0, 0, 0⟩
        d2 := ⟨0, 0, 0, 0, 0, 0, 0⟩
        cnt := 0
        idx := 0
        latch := dg
        responses := s.responses ++ [if dg = s.latch then 0x00 else rspWord dg] }

/-- From a state of the invariant no request and no step ends in a fault: an admitted request has one outcome, the
next state (R170). -/
def Obligations.AdmittedRequestsNeverFault : Prop :=
  ∀ s : State, Inv s →
    (∀ f, step s ≠ .fault f)
    ∧ (∀ (a : Agent) (i : Instr), (∃ t, issue a i s = .next t ∧ Inv t) ∨ ∃ r, issue a i s = .refused r)

/-- `CNT_W` is the least width that holds `BLOCK_SIZE`, and under the invariant both counters fit it, so that neither
ever wraps at `2^CNT_W` (R8, R23). -/
def Obligations.CountersFitTheirWidth : Prop :=
  (∀ c : Config, c.blockSize < 2 ^ cntW c ∧ ∀ n, c.blockSize < 2 ^ n → 1 ≤ c.blockSize → cntW c ≤ n)
    ∧ ∀ s : State, Inv s → s.ready = true → s.cnt < 2 ^ cntW s.cfg ∧ s.idx < 2 ^ cntW s.cfg

/-- Overload (R93): from an empty block, for every order of SUBMITs and POLLs in which no POLL completes the block, the
run completes, `CNT` is the number of SUBMITs up to `BLOCK_SIZE`, `IDX` the number of samples consumed, and the buffer
holds the first samples in order. -/
def Obligations.OverloadKeepsTheFirstSamples : Prop :=
  ∀ (s : State) (ls : List Line), Inv s → s.ready = true → s.cnt = 0 → (∀ l ∈ ls, SampleLine s.cfg.sampleW l) →
    (sampleCounts s.cfg.blockSize ls).2 < s.cfg.blockSize →
    ∃ t, runListing ls s = .next t
      ∧ t.cnt = min (submitted ls).length s.cfg.blockSize
      ∧ t.idx = (sampleCounts s.cfg.blockSize ls).2
      ∧ ∀ j, j < t.cnt → Memory.read t.buf j = (submitted ls)[j]?

/-- The filter of R108, for every order of a block's SUBMITs and POLLs: as long as the block is not complete,
`(D1[k], D2[k])` is `(s[n], s[n-1])` of the recurrence `s[n] = narrow16(x[n] + asr(COEFF*s[n-1], 14) - s[n-2])` with
`s[-1] = s[-2] = 0` over the samples consumed so far, the first `IDX` submitted; every POLL responds `none`. -/
def Obligations.DelayRegistersFollowTheRecurrence : Prop :=
  ∀ (s : State) (ls : List Line), Inv s → s.ready = true → s.cnt = 0 → (∀ l ∈ ls, SampleLine s.cfg.sampleW l) →
    (sampleCounts s.cfg.blockSize ls).2 < s.cfg.blockSize →
    ∃ t, runListing ls s = .next t
      ∧ t.idx = (sampleCounts s.cfg.blockSize ls).2
      ∧ t.responses = s.responses ++ List.replicate (pollCount ls) 0x00
      ∧ ∀ k : Fin 7, ((t.d1.get k).toInt, (t.d2.get k).toInt) =
          goertzel s.cfg.ovfMode (s.cfg.coeff.get k).toInt
            (((submitted ls).take t.idx).map fun raw => (raw.toNat : Int) - 2 ^ (s.cfg.sampleW - 1))

/-- A whole block end to end (R57, R108, R124, R158), for every order of its SUBMITs and POLLs: the POLL that takes the
block's last sample is decided by a Detection Code that is a function of the first `BLOCK_SIZE` samples submitted, the
configuration and `THRESH` alone; `LATCH` is its DECODE result, every earlier POLL responded `none`, and the block is
back at its start. -/
def Obligations.ABlockReportsItsDigit : Prop :=
  ∀ (s : State) (ls : List Line), Inv s → s.ready = true → s.cnt = 0 → (∀ l ∈ ls, SampleLine s.cfg.sampleW l) →
    (sampleCounts s.cfg.blockSize ls).2 + 1 = s.cfg.blockSize →
    (sampleCounts s.cfg.blockSize ls).2 < (sampleCounts s.cfg.blockSize ls).1 →
    let raws := (submitted ls).take s.cfg.blockSize
    let dg := decodeDigit s.cfg (blockCode s.cfg s.thresh raws)
    raws.length = s.cfg.blockSize
    ∧ ∃ m, runListing (ls ++ [(.consumer, .poll)]) s = .next { s with
        d1 := ⟨0, 0, 0, 0, 0, 0, 0⟩
        d2 := ⟨0, 0, 0, 0, 0, 0, 0⟩
        buf := m
        cnt := 0
        idx := 0
        latch := dg
        responses := s.responses ++ List.replicate (pollCount ls) 0x00
          ++ [if dg = s.latch then 0x00 else rspWord dg] }
      ∧ ∀ j, j < s.cfg.blockSize → Memory.read m j = raws[j]?

/-- The schedule of `FEEDV` (R84), each SUBMIT followed at once by its POLL: `BLOCK_SIZE` legal samples complete the
block, with a response `none` to every POLL but the last, which reports the samples' digit. -/
def Obligations.FeedingABlockReportsItsDigit : Prop :=
  ∀ (s : State) (raws : List Word16), Inv s → s.ready = true → s.cnt = 0 → raws.length = s.cfg.blockSize →
    (∀ raw ∈ raws, raw.toNat < 2 ^ s.cfg.sampleW) →
    let dg := decodeDigit s.cfg (blockCode s.cfg s.thresh raws)
    ∃ m, runListing (feedv raws) s = .next { s with
        d1 := ⟨0, 0, 0, 0, 0, 0, 0⟩
        d2 := ⟨0, 0, 0, 0, 0, 0, 0⟩
        buf := m
        cnt := 0
        idx := 0
        latch := dg
        responses := s.responses ++ List.replicate (s.cfg.blockSize - 1) 0x00
          ++ [if dg = s.latch then 0x00 else rspWord dg] }
      ∧ ∀ j, j < raws.length → Memory.read m j = raws[j]?

/-- Silence (R127 (a), R128), for every order of the block's SUBMITs and POLLs: a block whose samples are all
`2^(SAMPLE_W-1)` reports `none` throughout and clears `LATCH`, whatever the Threshold. -/
def Obligations.SilenceClearsTheLatch : Prop :=
  ∀ (s : State) (ls : List Line), Inv s → s.ready = true → s.cnt = 0 → (∀ l ∈ ls, SampleLine s.cfg.sampleW l) →
    (∀ raw ∈ submitted ls, raw.toNat = 2 ^ (s.cfg.sampleW - 1)) →
    (sampleCounts s.cfg.blockSize ls).2 + 1 = s.cfg.blockSize →
    (sampleCounts s.cfg.blockSize ls).2 < (sampleCounts s.cfg.blockSize ls).1 →
    ∃ t, runListing (ls ++ [(.consumer, .poll)]) s = .next t
      ∧ t.latch = none ∧ t.responses = s.responses ++ List.replicate (pollCount ls + 1) 0x00

/-- What R35 leaves unspecified is never observed: whatever those elements hold before the first INIT, after it the
states agree on everything a later operation can read. -/
def Obligations.InitForgetsUnspecifiedValues : Prop :=
  ∀ (s t : State) (x : Word16), s.ready = false → t.ready = false → s.cfg = t.cfg →
    s.producer = t.producer → s.consumer = t.consumer → s.unitId = t.unitId → s.turn = t.turn →
    s.responses = t.responses → configWf s.cfg = true → x ≠ 0 →
    ∃ s' t', exec (.init x) s = .next s' ∧ exec (.init x) t = .next t' ∧ Agree s' t'

/-- States that agree but for dead and consumed buffer entries (R32) stay so under every step, and are refused alike:
no response and no `READY` level ever depends on such an entry. -/
def Obligations.DeadEntriesAreNeverObserved : Prop :=
  ∀ s t : State, Agree s t →
    (∀ s', step s = .next s' → ∃ t', step t = .next t' ∧ Agree s' t')
    ∧ (∀ r, step s = .refused r → step t = .refused r)
    ∧ (∀ f, step s = .fault f → step t = .fault f)

/-- Just after hardware reset (R190): `READY = 0`, the configured constants, and only NOP and INIT admitted. -/
def Obligations.HardwareReset : Prop :=
  State.reset.cfg = defaultConfig
    ∧ ∀ c : Config, (State.afterReset c).ready = false ∧ (State.afterReset c).cfg = c
      ∧ ∀ i t, exec i (State.afterReset c) = .next t → i = .nop ∨ ∃ x, i = .init x

/-- Instances are independent: stepping one changes that one alone, by its own step, and steps of two instances commute
(R184). The last two clauses are the model's choice (DESIGN CHOICE, log 6): each instance arbitrates by its own free
value, whose index `unitId` is its position and is changed by no step. That an instance which has met a refusal leaves
the others going is the model's reading (DEDUCED, log 18). -/
def Obligations.InstancesAreIndependent : Prop :=
  (∀ (n : Nat) (ms : Instances),
    (stepInstance n ms).length = ms.length
    ∧ (∀ m, m ≠ n → (stepInstance n ms)[m]? = ms[m]?)
    ∧ (∀ s, ms[n]? = some (.next s) → (stepInstance n ms)[n]? = some (step s))
    ∧ ∀ m, m ≠ n → stepInstance m (stepInstance n ms) = stepInstance n (stepInstance m ms))
    ∧ (∀ (cs : List Config) (n : Nat) (c : Config), cs[n]? = some c →
        (Instances.reset cs)[n]? = some (.next { State.afterReset c with unitId := n }))
    ∧ ∀ s t : State, step s = .next t → t.unitId = s.unitId

/-! ### Arithmetic, table and threshold -/

/-- The narrowing write of R107, and its worked examples. -/
def Obligations.NarrowingWrite : Prop :=
  (∀ (m : OvfMode) (y : Int), -32768 ≤ y → y ≤ 32767 → narrow16 m y = y)
    ∧ (∀ y : Int, -32768 ≤ narrow16 .wrap y ∧ narrow16 .wrap y ≤ 32767 ∧ (narrow16 .wrap y - y) % 65536 = 0)
    ∧ (∀ y : Int, y > 32767 → narrow16 .sat y = 32767)
    ∧ (∀ y : Int, y < -32768 → narrow16 .sat y = -32768)
    ∧ newOutput 0 30000 (-30000) 27980 = 81232 ∧ narrow16 .wrap 81232 = 15696 ∧ narrow16 .sat 81232 = 32767
    ∧ newOutput 0 (-30000) 30000 27980 = -81233 ∧ narrow16 .wrap (-81233) = -15697
    ∧ narrow16 .sat (-81233) = -32768
    ∧ defaultConfig.ovfMode = .wrap

/-- The intermediates of R102, R103 and R105 stay in their ranges for all register, coefficient and sample values: the
product within `2^30`, the feedback in `[-65534, 65536]`, the new output in `[-131069, 131071]`. -/
def Obligations.IntermediatesStayInRange : Prop :=
  ∀ d1 d2 c raw : Word16, ∀ n : Nat, 1 ≤ n → n ≤ 16 → raw.toNat < 2 ^ n →
    (-(2 : Int) ^ 30 ≤ d1.toInt * c.toInt ∧ d1.toInt * c.toInt ≤ (2 : Int) ^ 30)
    ∧ (-65534 ≤ feedback d1.toInt c.toInt ∧ feedback d1.toInt c.toInt ≤ 65536)
    ∧ (-(2 : Int) ^ (n - 1) ≤ centered n raw ∧ centered n raw ≤ (2 : Int) ^ (n - 1) - 1)
    ∧ (-131069 ≤ newOutput (centered n raw) d1.toInt d2.toInt c.toInt
        ∧ newOutput (centered n raw) d1.toInt d2.toInt c.toInt ≤ 131071)

/-- The accumulator (R122): the three products fit 32 bits; `|fb| <= 2|D1|` and `|fb*D2| <= D1^2 + D2^2`;
`0 <= e <= 2^32`, the maximum at the all-minimum registers and coefficient; a 32-bit accumulator turns `e >= 2^31`
negative and `2^32` into 0, so that no magnitude of it is positive, and holds `e` itself below `2^31`; one of 34 bits or more holds `e` itself; wrapping
after each addition or once at the end is the same. -/
def Obligations.AccumulatorRange : Prop :=
  (∀ d1 d2 c : Word16,
    let fb := feedback d1.toInt c.toInt
    let e := energy d1.toInt d2.toInt c.toInt
    (0 ≤ d1.toInt * d1.toInt ∧ d1.toInt * d1.toInt < (2 : Int) ^ 31)
    ∧ (0 ≤ d2.toInt * d2.toInt ∧ d2.toInt * d2.toInt < (2 : Int) ^ 31)
    ∧ (-(2 : Int) ^ 31 ≤ fb * d2.toInt ∧ fb * d2.toInt < (2 : Int) ^ 31)
    ∧ (fb * d2.toInt = -(2 : Int) ^ 31 ↔ fb = 65536 ∧ d2.toInt = -32768)
    ∧ |fb| ≤ 2 * |d1.toInt|
    ∧ |fb * d2.toInt| ≤ d1.toInt * d1.toInt + d2.toInt * d2.toInt
    ∧ 0 ≤ e ∧ e ≤ (2 : Int) ^ 32
    ∧ ((2 : Int) ^ 31 ≤ e → e < (2 : Int) ^ 32 → wrapS 32 e < 0)
    ∧ (e < (2 : Int) ^ 31 → wrapS 32 e = e)
    ∧ ((2 : Int) ^ 31 ≤ e → ∀ k, asr (wrapS 32 e) k ≤ 0)
    ∧ ∀ n, 34 ≤ n → wrapS n e = e)
    ∧ feedback (-32768) (-32768) = 65536 ∧ (65536 : Int) * (-32768) = -(2 : Int) ^ 31
    ∧ energy (-32768) (-32768) (-32768) = (2 : Int) ^ 32 ∧ wrapS 32 ((2 : Int) ^ 32) = 0
    ∧ ∀ (n : Nat) (a b c : Int), 1 ≤ n → wrapS n (wrapS n (a + b) - c) = wrapS n (a + b - c)

/-- With `ACC_W = 32` and `FINAL_SHIFT = 16` a Threshold of 32767 or more can never be exceeded (R125): no resonator's
bit is ever set, whatever the delay registers hold, and every POLL that completes responds `none`. -/
def Obligations.ThresholdCeiling : Prop :=
  ∀ s : State, s.cfg.accW = 32 → s.cfg.finalShift = 16 → 32767 ≤ s.thresh.toNat →
    detectionCode s = 0 ∧ ∀ t, exec .poll s = .next t → t.responses = s.responses ++ [0x00]

/-- The full transition table of DEBOUNCE (R146): `LATCH` and decoded digit before, `LATCH` after and event; and its
frame: at the end of a completing POLL it writes `LATCH` and nothing else, and its result is the response. -/
def Obligations.DebounceTransitions : Prop :=
  debounce none none = (none, none)
    ∧ (∀ d, debounce none (some d) = (some d, some d))
    ∧ (∀ d, debounce (some d) none = (none, none))
    ∧ (∀ d, debounce (some d) (some d) = (some d, none))
    ∧ (∀ d d', d ≠ d' → debounce (some d) (some d') = (some d', some d'))
    ∧ ∀ (code : Code) (s : State), concludeBlock code s = { s with
        latch := (debounce s.latch (decodeDigit s.cfg code)).1
        responses := s.responses ++ [rspWord (debounce s.latch (decodeDigit s.cfg code)).2] }

/-- DECODE is an exact match (R135, R136) in every well-formed table: a code decodes to a symbol exactly when the
pair is an entry, and to `none` exactly when no entry has the code. The last clause, that it decodes to a symbol exactly
when it has one low-group and one high-group bit, is an inference the spec marks as its own: R136's equivalent form,
derived from R79. -/
def Obligations.DecodeIsExactMatch : Prop :=
  ∀ (c : Config) (code : Code), configWf c = true →
    (∀ d, decodeDigit c code = some d ↔ (code, d) ∈ c.dtab)
    ∧ (decodeDigit c code = none ↔ ∀ d, (code, d) ∉ c.dtab)
    ∧ ((decodeDigit c code).isSome = true ↔
        popcount (code &&& c.lowMask) = 1 ∧ popcount (code &&& c.highMask) = 1)

/-- The complete decode function of the default table (R137). -/
def Obligations.DefaultDecodeFunction : Prop :=
  ∀ code : Code, decodeDigit defaultConfig code =
    if code = 0x11 then some .key1 else if code = 0x21 then some .key2 else if code = 0x41 then some .key3
    else if code = 0x12 then some .key4 else if code = 0x22 then some .key5 else if code = 0x42 then some .key6
    else if code = 0x14 then some .key7 else if code = 0x24 then some .key8 else if code = 0x44 then some .key9
    else if code = 0x18 then some .star else if code = 0x28 then some .key0 else if code = 0x48 then some .hash
    else none

/-- The pseudo-instructions expand as the table of R84 says. -/
def Obligations.PseudoInstructionsExpand : Prop :=
  (∀ raw, feed raw = [(.producer, .submit raw), (.consumer, .poll)])
    ∧ (feedv [] = [] ∧ ∀ raw raws, feedv (raw :: raws) = feed raw ++ feedv raws)
    ∧ (submitv [] = [] ∧ ∀ raw raws, submitv (raw :: raws) = (.producer, .submit raw) :: submitv raws)
    ∧ (polln 0 = [] ∧ ∀ n, polln (n + 1) = (.consumer, .poll) :: polln n)
end

