-- ==== Sys2Proof/Laws/Admission.lean ====
section
/-! SUPPORT. What the two admission operations can answer. -/

namespace Sys2Proof.Machine

variable {s t : State} {k : Host.Outcome State Fault Refusal}

theorem whenConfigured_of (h : configWf s.cfg = true) : whenConfigured s k = k := if_pos h

theorem whenReady_of (h : configWf s.cfg = true) (hr : s.ready = true) : whenReady s k = k := by
  simp [whenReady, whenConfigured_of h, hr]

theorem whenConfigured_next : whenConfigured s k = .next t ↔ configWf s.cfg = true ∧ k = .next t := by
  unfold whenConfigured; split <;> simp_all

theorem whenConfigured_refused {r : Refusal} :
    whenConfigured s k = .refused r ↔
      (configWf s.cfg = false ∧ r = .badConfig) ∨ (configWf s.cfg = true ∧ k = .refused r) := by
  unfold whenConfigured
  cases configWf s.cfg <;> simp [@eq_comm Refusal r]

theorem whenConfigured_fault {f : Fault} :
    whenConfigured s k = .fault f ↔ configWf s.cfg = true ∧ k = .fault f := by
  unfold whenConfigured; split <;> simp_all

theorem whenReady_next :
    whenReady s k = .next t ↔ configWf s.cfg = true ∧ s.ready = true ∧ k = .next t := by
  unfold whenReady; rw [whenConfigured_next]; split <;> simp_all

theorem whenReady_refused {r : Refusal} :
    whenReady s k = .refused r ↔
      (configWf s.cfg = false ∧ r = .badConfig) ∨
      (configWf s.cfg = true ∧ s.ready = false ∧ r = .notReady) ∨
      (configWf s.cfg = true ∧ s.ready = true ∧ k = .refused r) := by
  unfold whenReady
  rw [whenConfigured_refused]
  cases s.ready <;> simp [@eq_comm Refusal r]

theorem whenReady_fault {f : Fault} :
    whenReady s k = .fault f ↔ configWf s.cfg = true ∧ s.ready = true ∧ k = .fault f := by
  unfold whenReady; rw [whenConfigured_fault]; split <;> simp_all

end Sys2Proof.Machine
end

