-- ==== Sys2Proof/Laws/Arith.lean ====
section
/-! SUPPORT. The ranges of wrapping, saturating and narrowing, and the register write they go through. -/

namespace Sys2Proof.Machine

theorem wrapS_bounds (n : Nat) (v : Int) :
    -(2 : Int) ^ (n - 1) ≤ wrapS n v ∧ wrapS n v < (2 : Int) ^ n - (2 : Int) ^ (n - 1) := by
  have hp : (0 : Int) < 2 ^ n := by positivity
  have h1 := Int.emod_nonneg (v + (2 : Int) ^ (n - 1)) hp.ne'
  have h2 := Int.emod_lt_of_pos (v + (2 : Int) ^ (n - 1)) hp
  unfold wrapS
  constructor <;> linarith

theorem wrapS_congr (n : Nat) (v : Int) : wrapS n v % (2 : Int) ^ n = v % (2 : Int) ^ n := by
  unfold wrapS
  rw [Int.emod_sub_emod]
  congr 1
  ring

theorem satS_bounds (n : Nat) (v : Int) :
    -(2 : Int) ^ (n - 1) ≤ satS n v ∧ satS n v ≤ (2 : Int) ^ (n - 1) - 1 := by
  have hp : (0 : Int) < 2 ^ (n - 1) := by positivity
  unfold satS
  split
  · omega
  · split <;> omega

theorem narrow16_bounds (mode : OvfMode) (v : Int) :
    -32768 ≤ narrow16 mode v ∧ narrow16 mode v ≤ 32767 := by
  cases mode with
  | wrap =>
    have h := wrapS_bounds 16 v
    norm_num at h
    simp only [narrow16]
    omega
  | sat =>
    have h := satS_bounds 16 v
    norm_num at h
    simpa only [narrow16] using h

/-- A value in the signed 16-bit range is read back as it was written. -/
theorem regInt_regWord {v : Int} (h1 : -32768 ≤ v) (h2 : v ≤ 32767) : regInt (regWord v) = v := by
  unfold regInt regWord
  rw [BitVec.toInt_ofInt]
  exact Int.bmod_eq_of_le (by omega) (by omega)

@[simp] theorem regInt_regWord_narrow16 (mode : OvfMode) (v : Int) :
    regInt (regWord (narrow16 mode v)) = narrow16 mode v :=
  regInt_regWord (narrow16_bounds mode v).1 (narrow16_bounds mode v).2

theorem regInt_bounds (w : Word16) : -32768 ≤ regInt w ∧ regInt w ≤ 32767 := by
  have h1 := BitVec.le_toInt w
  have h2 := BitVec.toInt_lt (x := w)
  unfold regInt
  constructor <;> omega

end Sys2Proof.Machine
end

