-- ==== Sys2Proof/Laws/Decode.lean ====
section
/-! SUPPORT. The fields of a request word, and the legality of a SUBMIT operand as a bound. -/

namespace Sys2Proof

theorem reqOp_toNat (w : Req) : (reqOp w).toNat = w.toNat / 2 ^ 16 := by
  have := w.isLt
  simp only [reqOp, BitVec.extractLsb'_toNat, Nat.shiftRight_eq_div_pow]
  omega

theorem reqArg_toNat (w : Req) : (reqArg w).toNat = w.toNat % 2 ^ 16 := by
  simp [reqArg, BitVec.extractLsb'_toNat]

theorem reqWord_toNat (op : BitVec 2) (arg : Word16) :
    (reqWord op arg).toNat = op.toNat * 2 ^ 16 + arg.toNat := by
  rw [reqWord, BitVec.toNat_append, ← Nat.shiftLeft_add_eq_or_of_lt arg.isLt, Nat.shiftLeft_eq]

@[simp] theorem reqOp_reqWord (op : BitVec 2) (arg : Word16) : reqOp (reqWord op arg) = op := by
  have := arg.isLt
  rw [← BitVec.toNat_inj, reqOp_toNat, reqWord_toNat]
  omega

@[simp] theorem reqArg_reqWord (op : BitVec 2) (arg : Word16) : reqArg (reqWord op arg) = arg := by
  have := arg.isLt
  rw [← BitVec.toNat_inj, reqArg_toNat, reqWord_toNat]
  omega

@[simp] theorem reqWord_fields (w : Req) : reqWord (reqOp w) (reqArg w) = w := by
  rw [← BitVec.toNat_inj, reqWord_toNat, reqOp_toNat, reqArg_toNat]
  omega

theorem rawFits_iff (n : Nat) (arg : Word16) : rawFits n arg = true ↔ arg.toNat < 2 ^ n := by
  unfold rawFits
  rw [beq_iff_eq, ← BitVec.toNat_inj, BitVec.toNat_ushiftRight, Nat.shiftRight_eq_div_pow]
  simp [Nat.div_eq_zero_iff]

end Sys2Proof
end

