-- ==== Sys2Proof/Laws/Lanes.lean ====
section
/-! SUPPORT. The seven lanes: reading a lane of a bank, and equality lane by lane. -/

namespace Sys2Proof

@[simp] theorem Lanes.get_ofFn {α : Type} (f : Fin 7 → α) (k : Fin 7) : (Lanes.ofFn f).get k = f k := by
  fin_cases k <;> rfl

@[simp] theorem Lanes.get_fill {α : Type} (a : α) (k : Fin 7) : (Lanes.fill a).get k = a := by
  fin_cases k <;> rfl

theorem Lanes.eq_of_get {α : Type} {v w : Lanes α} (h : ∀ k, v.get k = w.get k) : v = w := by
  cases v; cases w
  have h0 := h 0; have h1 := h 1; have h2 := h 2; have h3 := h 3
  have h4 := h 4; have h5 := h 5; have h6 := h 6
  simp only [Lanes.get] at h0 h1 h2 h3 h4 h5 h6
  simp [*]

theorem Lanes.ofFn_eq_fill {α : Type} {f : Fin 7 → α} {a : α} (h : ∀ k, f k = a) :
    Lanes.ofFn f = Lanes.fill a :=
  Lanes.eq_of_get fun k => by simp [h k]

end Sys2Proof
end

