-- ==== Sys2Proof/Laws/Memory.lean ====
section
/-! SUPPORT. The laws of the Sample Buffer: read after write, and the canonical form kept by every operation. -/

namespace Sys2Proof.Machine

/-- A read gives the value written at its index, and any other index reads as before. -/
theorem Memory.read_write (m : Memory) (i : Nat) (v : Word16) (j : Nat) :
    Memory.read (Memory.write m i v) j = if i = j then some v else Memory.read m j := by
  induction m with
  | nil => simp [Memory.write, Memory.read]
  | cons e rest ih =>
    unfold Memory.write
    split
    · simp [Memory.read]
    · split
      · next h => subst h; by_cases hj : e.1 = j <;> simp [Memory.read, hj]
      · next h =>
        by_cases hj : e.1 = j
        · subst hj; simp [Memory.read, h]
        · simp [Memory.read, hj, ih]

theorem Memory.read_write_same (m : Memory) (i : Nat) (v : Word16) :
    Memory.read (Memory.write m i v) i = some v := by
  simp [Memory.read_write]

theorem Memory.read_write_other (m : Memory) (v : Word16) {i j : Nat} (h : i ≠ j) :
    Memory.read (Memory.write m i v) j = Memory.read m j := by
  simp [Memory.read_write, h]

/-- The only entry a write can add is the one written. -/
theorem Memory.mem_write {m : Memory} {i : Nat} {v : Word16} {e : Nat × Word16}
    (h : e ∈ Memory.write m i v) : e = (i, v) ∨ e ∈ m := by
  induction m with
  | nil => simpa [Memory.write] using h
  | cons f rest ih =>
    unfold Memory.write at h
    split at h
    · simpa using h
    · split at h
      · rcases List.mem_cons.1 h with h | h
        · exact .inl h
        · exact .inr (List.mem_cons_of_mem _ h)
      · rcases List.mem_cons.1 h with h | h
        · exact .inr (h ▸ List.mem_cons_self)
        · rcases ih h with h | h
          · exact .inl h
          · exact .inr (List.mem_cons_of_mem _ h)

/-- The canonical form as a property of the list of indexes. -/
theorem Memory.wf_iff (m : Memory) : Memory.wf m = true ↔ m.Pairwise (fun e f => e.1 < f.1) := by
  induction m with
  | nil => simp [Memory.wf]
  | cons e rest ih =>
    cases rest with
    | nil => simp [Memory.wf]
    | cons f rest =>
      rw [Memory.wf, Bool.and_eq_true, decide_eq_true_eq, ih, List.pairwise_cons (a := e)]
      refine and_congr_left fun hp => ?_
      constructor
      · intro h g hg
        rcases List.mem_cons.1 hg with rfl | hg
        · exact h
        · exact h.trans ((List.pairwise_cons.1 hp).1 g hg)
      · intro h
        exact h f List.mem_cons_self

/-- A write keeps the canonical form. -/
theorem Memory.wf_write {m : Memory} (h : Memory.wf m = true) (i : Nat) (v : Word16) :
    Memory.wf (Memory.write m i v) = true := by
  rw [Memory.wf_iff] at *
  induction m with
  | nil => simp [Memory.write]
  | cons e rest ih =>
    obtain ⟨he, hr⟩ := List.pairwise_cons.1 h
    unfold Memory.write
    split
    · next hi =>
      refine List.pairwise_cons.2 ⟨fun g hg => ?_, h⟩
      rcases List.mem_cons.1 hg with rfl | hg
      · exact hi
      · exact hi.trans (he g hg)
    · split
      · next hi => subst hi; exact List.pairwise_cons.2 ⟨he, hr⟩
      · next h1 h2 =>
        refine List.pairwise_cons.2 ⟨fun g hg => ?_, ih hr⟩
        rcases Memory.mem_write hg with rfl | hg
        · show e.1 < i
          omega
        · exact he g hg

/-- An index that reads is listed with the value read. -/
theorem Memory.mem_of_read {m : Memory} {i : Nat} {v : Word16} (h : Memory.read m i = some v) :
    (i, v) ∈ m := by
  induction m with
  | nil => simp [Memory.read] at h
  | cons e rest ih =>
    unfold Memory.read at h
    split at h
    · next he =>
      obtain rfl : e.2 = v := by simpa using h
      subst he
      exact List.mem_cons_self
    · exact List.mem_cons_of_mem _ (ih h)

theorem State.reset_buf_wf : Memory.wf State.reset.buf = true := rfl

end Sys2Proof.Machine
end

