-- ==== Sys2Proof/Laws/State.lean ====
section
/-! SUPPORT. One lemma per field per update of the state, so that no proof unfolds a record update. -/

namespace Sys2Proof.Machine

variable (s : State)

@[simp] theorem State.setDelays_cfg (d1 d2 : Lanes Word16) : (s.setDelays d1 d2).cfg = s.cfg := rfl
@[simp] theorem State.setDelays_d1 (d1 d2 : Lanes Word16) : (s.setDelays d1 d2).d1 = d1 := rfl
@[simp] theorem State.setDelays_d2 (d1 d2 : Lanes Word16) : (s.setDelays d1 d2).d2 = d2 := rfl
@[simp] theorem State.setDelays_buf (d1 d2 : Lanes Word16) : (s.setDelays d1 d2).buf = s.buf := rfl
@[simp] theorem State.setDelays_cnt (d1 d2 : Lanes Word16) : (s.setDelays d1 d2).cnt = s.cnt := rfl
@[simp] theorem State.setDelays_idx (d1 d2 : Lanes Word16) : (s.setDelays d1 d2).idx = s.idx := rfl
@[simp] theorem State.setDelays_thresh (d1 d2 : Lanes Word16) : (s.setDelays d1 d2).thresh = s.thresh := rfl
@[simp] theorem State.setDelays_latch (d1 d2 : Lanes Word16) : (s.setDelays d1 d2).latch = s.latch := rfl
@[simp] theorem State.setDelays_ready (d1 d2 : Lanes Word16) : (s.setDelays d1 d2).ready = s.ready := rfl
@[simp] theorem State.setDelays_producer (d1 d2 : Lanes Word16) : (s.setDelays d1 d2).producer = s.producer := rfl
@[simp] theorem State.setDelays_consumer (d1 d2 : Lanes Word16) : (s.setDelays d1 d2).consumer = s.consumer := rfl
@[simp] theorem State.setDelays_unitId (d1 d2 : Lanes Word16) : (s.setDelays d1 d2).unitId = s.unitId := rfl
@[simp] theorem State.setDelays_turn (d1 d2 : Lanes Word16) : (s.setDelays d1 d2).turn = s.turn := rfl
@[simp] theorem State.setDelays_responses (d1 d2 : Lanes Word16) : (s.setDelays d1 d2).responses = s.responses := rfl

@[simp] theorem State.setBuf_cfg (buf : Memory) : (s.setBuf buf).cfg = s.cfg := rfl
@[simp] theorem State.setBuf_d1 (buf : Memory) : (s.setBuf buf).d1 = s.d1 := rfl
@[simp] theorem State.setBuf_d2 (buf : Memory) : (s.setBuf buf).d2 = s.d2 := rfl
@[simp] theorem State.setBuf_buf (buf : Memory) : (s.setBuf buf).buf = buf := rfl
@[simp] theorem State.setBuf_cnt (buf : Memory) : (s.setBuf buf).cnt = s.cnt := rfl
@[simp] theorem State.setBuf_idx (buf : Memory) : (s.setBuf buf).idx = s.idx := rfl
@[simp] theorem State.setBuf_thresh (buf : Memory) : (s.setBuf buf).thresh = s.thresh := rfl
@[simp] theorem State.setBuf_latch (buf : Memory) : (s.setBuf buf).latch = s.latch := rfl
@[simp] theorem State.setBuf_ready (buf : Memory) : (s.setBuf buf).ready = s.ready := rfl
@[simp] theorem State.setBuf_producer (buf : Memory) : (s.setBuf buf).producer = s.producer := rfl
@[simp] theorem State.setBuf_consumer (buf : Memory) : (s.setBuf buf).consumer = s.consumer := rfl
@[simp] theorem State.setBuf_unitId (buf : Memory) : (s.setBuf buf).unitId = s.unitId := rfl
@[simp] theorem State.setBuf_turn (buf : Memory) : (s.setBuf buf).turn = s.turn := rfl
@[simp] theorem State.setBuf_responses (buf : Memory) : (s.setBuf buf).responses = s.responses := rfl

@[simp] theorem State.setCounters_cfg (cnt idx : Nat) : (s.setCounters cnt idx).cfg = s.cfg := rfl
@[simp] theorem State.setCounters_d1 (cnt idx : Nat) : (s.setCounters cnt idx).d1 = s.d1 := rfl
@[simp] theorem State.setCounters_d2 (cnt idx : Nat) : (s.setCounters cnt idx).d2 = s.d2 := rfl
@[simp] theorem State.setCounters_buf (cnt idx : Nat) : (s.setCounters cnt idx).buf = s.buf := rfl
@[simp] theorem State.setCounters_cnt (cnt idx : Nat) : (s.setCounters cnt idx).cnt = cnt := rfl
@[simp] theorem State.setCounters_idx (cnt idx : Nat) : (s.setCounters cnt idx).idx = idx := rfl
@[simp] theorem State.setCounters_thresh (cnt idx : Nat) : (s.setCounters cnt idx).thresh = s.thresh := rfl
@[simp] theorem State.setCounters_latch (cnt idx : Nat) : (s.setCounters cnt idx).latch = s.latch := rfl
@[simp] theorem State.setCounters_ready (cnt idx : Nat) : (s.setCounters cnt idx).ready = s.ready := rfl
@[simp] theorem State.setCounters_producer (cnt idx : Nat) : (s.setCounters cnt idx).producer = s.producer := rfl
@[simp] theorem State.setCounters_consumer (cnt idx : Nat) : (s.setCounters cnt idx).consumer = s.consumer := rfl
@[simp] theorem State.setCounters_unitId (cnt idx : Nat) : (s.setCounters cnt idx).unitId = s.unitId := rfl
@[simp] theorem State.setCounters_turn (cnt idx : Nat) : (s.setCounters cnt idx).turn = s.turn := rfl
@[simp] theorem State.setCounters_responses (cnt idx : Nat) : (s.setCounters cnt idx).responses = s.responses := rfl

@[simp] theorem State.setThresh_cfg (t : Word16) : (s.setThresh t).cfg = s.cfg := rfl
@[simp] theorem State.setThresh_d1 (t : Word16) : (s.setThresh t).d1 = s.d1 := rfl
@[simp] theorem State.setThresh_d2 (t : Word16) : (s.setThresh t).d2 = s.d2 := rfl
@[simp] theorem State.setThresh_buf (t : Word16) : (s.setThresh t).buf = s.buf := rfl
@[simp] theorem State.setThresh_cnt (t : Word16) : (s.setThresh t).cnt = s.cnt := rfl
@[simp] theorem State.setThresh_idx (t : Word16) : (s.setThresh t).idx = s.idx := rfl
@[simp] theorem State.setThresh_thresh (t : Word16) : (s.setThresh t).thresh = t := rfl
@[simp] theorem State.setThresh_latch (t : Word16) : (s.setThresh t).latch = s.latch := rfl
@[simp] theorem State.setThresh_ready (t : Word16) : (s.setThresh t).ready = s.ready := rfl
@[simp] theorem State.setThresh_producer (t : Word16) : (s.setThresh t).producer = s.producer := rfl
@[simp] theorem State.setThresh_consumer (t : Word16) : (s.setThresh t).consumer = s.consumer := rfl
@[simp] theorem State.setThresh_unitId (t : Word16) : (s.setThresh t).unitId = s.unitId := rfl
@[simp] theorem State.setThresh_turn (t : Word16) : (s.setThresh t).turn = s.turn := rfl
@[simp] theorem State.setThresh_responses (t : Word16) : (s.setThresh t).responses = s.responses := rfl

@[simp] theorem State.setLatch_cfg (l : Option Symbol) : (s.setLatch l).cfg = s.cfg := rfl
@[simp] theorem State.setLatch_d1 (l : Option Symbol) : (s.setLatch l).d1 = s.d1 := rfl
@[simp] theorem State.setLatch_d2 (l : Option Symbol) : (s.setLatch l).d2 = s.d2 := rfl
@[simp] theorem State.setLatch_buf (l : Option Symbol) : (s.setLatch l).buf = s.buf := rfl
@[simp] theorem State.setLatch_cnt (l : Option Symbol) : (s.setLatch l).cnt = s.cnt := rfl
@[simp] theorem State.setLatch_idx (l : Option Symbol) : (s.setLatch l).idx = s.idx := rfl
@[simp] theorem State.setLatch_thresh (l : Option Symbol) : (s.setLatch l).thresh = s.thresh := rfl
@[simp] theorem State.setLatch_latch (l : Option Symbol) : (s.setLatch l).latch = l := rfl
@[simp] theorem State.setLatch_ready (l : Option Symbol) : (s.setLatch l).ready = s.ready := rfl
@[simp] theorem State.setLatch_producer (l : Option Symbol) : (s.setLatch l).producer = s.producer := rfl
@[simp] theorem State.setLatch_consumer (l : Option Symbol) : (s.setLatch l).consumer = s.consumer := rfl
@[simp] theorem State.setLatch_unitId (l : Option Symbol) : (s.setLatch l).unitId = s.unitId := rfl
@[simp] theorem State.setLatch_turn (l : Option Symbol) : (s.setLatch l).turn = s.turn := rfl
@[simp] theorem State.setLatch_responses (l : Option Symbol) : (s.setLatch l).responses = s.responses := rfl

@[simp] theorem State.setReady_cfg (r : Bool) : (s.setReady r).cfg = s.cfg := rfl
@[simp] theorem State.setReady_d1 (r : Bool) : (s.setReady r).d1 = s.d1 := rfl
@[simp] theorem State.setReady_d2 (r : Bool) : (s.setReady r).d2 = s.d2 := rfl
@[simp] theorem State.setReady_buf (r : Bool) : (s.setReady r).buf = s.buf := rfl
@[simp] theorem State.setReady_cnt (r : Bool) : (s.setReady r).cnt = s.cnt := rfl
@[simp] theorem State.setReady_idx (r : Bool) : (s.setReady r).idx = s.idx := rfl
@[simp] theorem State.setReady_thresh (r : Bool) : (s.setReady r).thresh = s.thresh := rfl
@[simp] theorem State.setReady_latch (r : Bool) : (s.setReady r).latch = s.latch := rfl
@[simp] theorem State.setReady_ready (r : Bool) : (s.setReady r).ready = r := rfl
@[simp] theorem State.setReady_producer (r : Bool) : (s.setReady r).producer = s.producer := rfl
@[simp] theorem State.setReady_consumer (r : Bool) : (s.setReady r).consumer = s.consumer := rfl
@[simp] theorem State.setReady_unitId (r : Bool) : (s.setReady r).unitId = s.unitId := rfl
@[simp] theorem State.setReady_turn (r : Bool) : (s.setReady r).turn = s.turn := rfl
@[simp] theorem State.setReady_responses (r : Bool) : (s.setReady r).responses = s.responses := rfl

@[simp] theorem State.setRequests_cfg (producer consumer : List Req) (turn : Nat) : (s.setRequests producer consumer turn).cfg = s.cfg := rfl
@[simp] theorem State.setRequests_d1 (producer consumer : List Req) (turn : Nat) : (s.setRequests producer consumer turn).d1 = s.d1 := rfl
@[simp] theorem State.setRequests_d2 (producer consumer : List Req) (turn : Nat) : (s.setRequests producer consumer turn).d2 = s.d2 := rfl
@[simp] theorem State.setRequests_buf (producer consumer : List Req) (turn : Nat) : (s.setRequests producer consumer turn).buf = s.buf := rfl
@[simp] theorem State.setRequests_cnt (producer consumer : List Req) (turn : Nat) : (s.setRequests producer consumer turn).cnt = s.cnt := rfl
@[simp] theorem State.setRequests_idx (producer consumer : List Req) (turn : Nat) : (s.setRequests producer consumer turn).idx = s.idx := rfl
@[simp] theorem State.setRequests_thresh (producer consumer : List Req) (turn : Nat) : (s.setRequests producer consumer turn).thresh = s.thresh := rfl
@[simp] theorem State.setRequests_latch (producer consumer : List Req) (turn : Nat) : (s.setRequests producer consumer turn).latch = s.latch := rfl
@[simp] theorem State.setRequests_ready (producer consumer : List Req) (turn : Nat) : (s.setRequests producer consumer turn).ready = s.ready := rfl
@[simp] theorem State.setRequests_producer (producer consumer : List Req) (turn : Nat) : (s.setRequests producer consumer turn).producer = producer := rfl
@[simp] theorem State.setRequests_consumer (producer consumer : List Req) (turn : Nat) : (s.setRequests producer consumer turn).consumer = consumer := rfl
@[simp] theorem State.setRequests_unitId (producer consumer : List Req) (turn : Nat) : (s.setRequests producer consumer turn).unitId = s.unitId := rfl
@[simp] theorem State.setRequests_turn (producer consumer : List Req) (turn : Nat) : (s.setRequests producer consumer turn).turn = turn := rfl
@[simp] theorem State.setRequests_responses (producer consumer : List Req) (turn : Nat) : (s.setRequests producer consumer turn).responses = s.responses := rfl

@[simp] theorem State.respond_cfg (ev : Option Symbol) : (s.respond ev).cfg = s.cfg := rfl
@[simp] theorem State.respond_d1 (ev : Option Symbol) : (s.respond ev).d1 = s.d1 := rfl
@[simp] theorem State.respond_d2 (ev : Option Symbol) : (s.respond ev).d2 = s.d2 := rfl
@[simp] theorem State.respond_buf (ev : Option Symbol) : (s.respond ev).buf = s.buf := rfl
@[simp] theorem State.respond_cnt (ev : Option Symbol) : (s.respond ev).cnt = s.cnt := rfl
@[simp] theorem State.respond_idx (ev : Option Symbol) : (s.respond ev).idx = s.idx := rfl
@[simp] theorem State.respond_thresh (ev : Option Symbol) : (s.respond ev).thresh = s.thresh := rfl
@[simp] theorem State.respond_latch (ev : Option Symbol) : (s.respond ev).latch = s.latch := rfl
@[simp] theorem State.respond_ready (ev : Option Symbol) : (s.respond ev).ready = s.ready := rfl
@[simp] theorem State.respond_producer (ev : Option Symbol) : (s.respond ev).producer = s.producer := rfl
@[simp] theorem State.respond_consumer (ev : Option Symbol) : (s.respond ev).consumer = s.consumer := rfl
@[simp] theorem State.respond_unitId (ev : Option Symbol) : (s.respond ev).unitId = s.unitId := rfl
@[simp] theorem State.respond_turn (ev : Option Symbol) : (s.respond ev).turn = s.turn := rfl
@[simp] theorem State.respond_responses (ev : Option Symbol) : (s.respond ev).responses = s.responses ++ [rspWord ev] := rfl

end Sys2Proof.Machine
end

