-- ==== Sys2Proof/Laws/Operations.lean ====
section
/-! SUPPORT. For each shared operation and each meaning, what it answers and when, said once. -/

namespace Sys2Proof.Machine

variable {s t : State}

/-! ### DEBOUNCE and the end of a block -/

/-- After any block `LATCH` is that block's DECODE result (R148). -/
@[simp] theorem debounce_latch (l dg : Option Symbol) : (debounce l dg).1 = dg := by
  cases dg with
  | none => rfl
  | some d =>
    unfold debounce
    by_cases h : l = some d <;> simp [h]

/-- An event is a decoded symbol that differs from `LATCH` (R146). -/
theorem debounce_event (l dg : Option Symbol) :
    (debounce l dg).2 = if dg = l then none else dg := by
  cases dg with
  | none => simp [debounce]
  | some d =>
    unfold debounce
    by_cases h : l = some d
    · simp [h]
    · simp [h, Ne.symm h]

/-- The response word of the event. -/
theorem rspWord_debounce (l dg : Option Symbol) :
    rspWord (debounce l dg).2 = if dg = l then 0x00 else rspWord dg := by
  rw [debounce_event]
  split <;> rfl

theorem concludeBlock_eq (code : Code) (s : State) :
    concludeBlock code s =
      { s with
        latch := decodeDigit s.cfg code
        responses := s.responses ++ [rspWord (debounce s.latch (decodeDigit s.cfg code)).2] } := by
  simp only [concludeBlock, State.setLatch, State.respond, debounce_latch]

/-! ### CONSUME -/

theorem readSample_ok {raw : Word16} :
    readSample s = .ok raw ↔ s.idx < s.cfg.blockSize ∧ Memory.read s.buf s.idx = some raw := by
  unfold readSample
  split
  · next h => cases hb : Memory.read s.buf s.idx <;> simp [h]
  · next h => simp [h]

/-- The state after a sample has gone through the bank and `IDX` has advanced (R106). -/
theorem filterSample_advance (raw : Word16) (s : State) (n m : Nat) :
    (filterSample raw s).setCounters n m =
      { s with
        d1 := Lanes.ofFn fun k =>
          filteredD1 s.cfg.ovfMode (centered s.cfg.sampleW raw) (s.d1.get k) (s.d2.get k) (s.cfg.coeff.get k)
        d2 := s.d1
        cnt := n
        idx := m } := rfl

/-- CONSUME answers the filtered state, or at the last sample of a block the completed one with its code (R106, R110). -/
theorem consume_ok {c : Option Code} :
    consume s = .ok (t, c) ↔
      ∃ raw, s.idx < s.cfg.blockSize ∧ Memory.read s.buf s.idx = some raw ∧
        ((s.idx + 1 ≠ s.cfg.blockSize ∧ t = (filterSample raw s).setCounters s.cnt (s.idx + 1) ∧ c = none) ∨
         (s.idx + 1 = s.cfg.blockSize ∧
          t = (((filterSample raw s).setCounters s.cnt (s.idx + 1)).setDelays zeroLanes zeroLanes).setCounters 0 0 ∧
          c = some (detectionCode ((filterSample raw s).setCounters s.cnt (s.idx + 1))))) := by
  unfold consume
  cases hr : readSample s with
  | error f =>
    constructor
    · intro h; simp at h
    · rintro ⟨raw, h1, h2, -⟩
      rw [readSample_ok.2 ⟨h1, h2⟩] at hr
      simp at hr
  | ok raw =>
    obtain ⟨h1, h2⟩ := readSample_ok.1 hr
    have hcfg : ((filterSample raw s).setCounters s.cnt (s.idx + 1)).cfg = s.cfg := rfl
    simp only [State.setCounters_idx, hcfg]
    by_cases hB : s.idx + 1 = s.cfg.blockSize
    · simp [hB, h2, completeBlock, finalize, eq_comm]
      intro _; omega
    · simp [hB, h1, h2, eq_comm]

theorem consume_error {f : Fault} : consume s = .error f ↔ readSample s = .error f := by
  unfold consume
  cases hr : readSample s with
  | error g => simp
  | ok raw => dsimp only; split <;> simp

/-! ### The meanings -/

theorem execNop_next : execNop s = .next t ↔ configWf s.cfg = true ∧ t = s := by
  simp [execNop, whenConfigured_next, @eq_comm State t]

theorem execInit_next {x : Word16} :
    execInit x s = .next t ↔
      configWf s.cfg = true ∧ x ≠ 0 ∧ (s.ready = false ∨ (s.cnt = 0 ∧ s.idx = 0)) ∧ t = startUp x s := by
  rw [execInit, whenConfigured_next]
  by_cases hx : x = 0#16
  · simp [thresholdLegal, hx]
  · cases s.ready <;> by_cases hc : s.cnt = 0 <;> by_cases hi : s.idx = 0 <;>
      simp [thresholdLegal, inFlight, hx, hc, hi, @eq_comm State t]

theorem startUp_eq (x : Word16) (s : State) :
    startUp x s =
      { s with d1 := zeroLanes, d2 := zeroLanes, cnt := 0, idx := 0, thresh := x, latch := none, ready := true } := rfl

theorem execSubmit_next {raw : Word16} :
    execSubmit raw s = .next t ↔
      configWf s.cfg = true ∧ s.ready = true ∧ rawFits s.cfg.sampleW raw = true ∧ t = ingest raw s := by
  rw [execSubmit, whenReady_next]
  cases rawFits s.cfg.sampleW raw <;> simp [@eq_comm State t]

theorem ingest_room {raw : Word16} (h : s.cnt < s.cfg.blockSize) :
    ingest raw s = { s with buf := Memory.write s.buf s.cnt raw, cnt := s.cnt + 1 } := by
  simp [ingest, h, State.setBuf, State.setCounters]

theorem ingest_full {raw : Word16} (h : ¬ s.cnt < s.cfg.blockSize) : ingest raw s = s := by
  simp [ingest, h]

theorem runCode_next {c : Code} :
    runCode c s = .next t ↔ configWf s.cfg = true ∧ s.ready = true ∧ t = concludeBlock c s := by
  simp [runCode, whenReady_next, @eq_comm State t]

theorem execPoll_next :
    execPoll s = .next t ↔
      configWf s.cfg = true ∧ s.ready = true ∧
        ((¬ s.idx < s.cnt ∧ t = s.respond none) ∨
         (s.idx < s.cnt ∧ ∃ u c, consume s = .ok (u, c) ∧
            ((c = none ∧ t = u.respond none) ∨ ∃ code, c = some code ∧ t = concludeBlock code u))) := by
  rw [execPoll, whenReady_next]
  refine and_congr_right fun _ => and_congr_right fun _ => ?_
  by_cases ha : s.idx < s.cnt
  · cases hc : consume s with
    | error f => simp [avail, ha]
    | ok p =>
      obtain ⟨u, c⟩ := p
      cases c with
      | none => simp [avail, ha, @eq_comm State t]
      | some code => simp [avail, ha, @eq_comm State t]
  · simp [avail, ha, @eq_comm State t]

theorem execPoll_fault {f : Fault} :
    execPoll s = .fault f ↔
      configWf s.cfg = true ∧ s.ready = true ∧ s.idx < s.cnt ∧ readSample s = .error f := by
  rw [execPoll, whenReady_fault]
  refine and_congr_right fun _ => and_congr_right fun _ => ?_
  by_cases ha : s.idx < s.cnt
  · rw [← consume_error]
    cases hc : consume s with
    | error g => simp [avail, ha]
    | ok p =>
      obtain ⟨u, c⟩ := p
      cases c <;> simp [avail, ha]
  · simp [avail, ha]

theorem execPoll_refused {r : Refusal} :
    execPoll s = .refused r ↔
      (configWf s.cfg = false ∧ r = .badConfig) ∨ (configWf s.cfg = true ∧ s.ready = false ∧ r = .notReady) := by
  rw [execPoll, whenReady_refused]
  refine or_congr_right (or_iff_left ?_)
  rintro ⟨-, -, h⟩
  by_cases ha : s.idx < s.cnt
  · cases hc : consume s with
    | error g => simp [avail, ha, hc] at h
    | ok p =>
      obtain ⟨u, c⟩ := p
      cases c <;> simp [avail, ha, hc] at h
  · simp [avail, ha] at h

/-- The twelve `DCODE7` rows all run their code through DECODE and DEBOUNCE. -/
theorem exec_of_code {i : Instr} {c : Code} (h : encode i = .code c) (s : State) :
    exec i s = runCode c s := by
  cases i <;> simp [encode] at h <;> subst h <;> rfl

/-- Bit `k` of a packed Detection Code is lane `k` (R126). -/
theorem packCode_bit (b : Lanes Bool) (k : Fin 7) : (packCode b).getLsbD k = b.get k := by
  obtain ⟨b0, b1, b2, b3, b4, b5, b6⟩ := b
  revert k b0 b1 b2 b3 b4 b5 b6
  decide

/-! ### Everything an instruction that completes can do -/

/-- The state after the sample `raw` has gone through the bank and `IDX` has advanced. -/
abbrev afterSample (raw : Word16) (s : State) : State :=
  (filterSample raw s).setCounters s.cnt (s.idx + 1)

/-- If `exec` answers a next state, it is that of NOP, of an admitted INIT, of a SUBMIT that appends or drops, of a
POLL without a sample, with one inside a block, or with a block's last one, or of a Detection Code. -/
theorem exec_next_cases {i : Instr} (h : exec i s = .next t) :
    configWf s.cfg = true ∧
    ((i = .nop ∧ t = s) ∨
     (∃ x, i = .init x ∧ x ≠ 0 ∧ (s.ready = false ∨ (s.cnt = 0 ∧ s.idx = 0)) ∧ t = startUp x s) ∨
     (s.ready = true ∧ ∃ raw, i = .submit raw ∧ rawFits s.cfg.sampleW raw = true ∧ s.cnt < s.cfg.blockSize ∧
        t = { s with buf := Memory.write s.buf s.cnt raw, cnt := s.cnt + 1 }) ∨
     (s.ready = true ∧ ∃ raw, i = .submit raw ∧ rawFits s.cfg.sampleW raw = true ∧ ¬ s.cnt < s.cfg.blockSize ∧
        t = s) ∨
     (s.ready = true ∧ i = .poll ∧ ¬ s.idx < s.cnt ∧ t = s.respond none) ∨
     (s.ready = true ∧ i = .poll ∧ s.idx < s.cnt ∧ ∃ raw, s.idx < s.cfg.blockSize ∧
        Memory.read s.buf s.idx = some raw ∧ s.idx + 1 ≠ s.cfg.blockSize ∧ t = (afterSample raw s).respond none) ∨
     (s.ready = true ∧ i = .poll ∧ s.idx < s.cnt ∧ ∃ raw, Memory.read s.buf s.idx = some raw ∧
        s.idx + 1 = s.cfg.blockSize ∧
        t = concludeBlock (detectionCode (afterSample raw s))
          (((afterSample raw s).setDelays zeroLanes zeroLanes).setCounters 0 0)) ∨
     (s.ready = true ∧ ∃ c, encode i = .code c ∧ t = concludeBlock c s)) := by
  cases i with
  | nop =>
    obtain ⟨h1, h2⟩ := execNop_next.1 h
    exact ⟨h1, .inl ⟨rfl, h2⟩⟩
  | init x =>
    obtain ⟨h1, h2⟩ := execInit_next.1 h
    exact ⟨h1, .inr (.inl ⟨x, rfl, h2⟩)⟩
  | submit raw =>
    obtain ⟨h1, h2, h3, h4⟩ := execSubmit_next.1 h
    refine ⟨h1, .inr (.inr ?_)⟩
    by_cases hb : s.cnt < s.cfg.blockSize
    · exact .inl ⟨h2, raw, rfl, h3, hb, h4.trans (ingest_room hb)⟩
    · exact .inr (.inl ⟨h2, raw, rfl, h3, hb, h4.trans (ingest_full hb)⟩)
  | poll =>
    obtain ⟨h1, h2, h3⟩ := execPoll_next.1 h
    refine ⟨h1, .inr (.inr (.inr (.inr ?_)))⟩
    rcases h3 with ⟨h3, h4⟩ | ⟨h3, u, c, h4, h5⟩
    · exact .inl ⟨h2, rfl, h3, h4⟩
    · obtain ⟨raw, h6, h7, ⟨h8, rfl, rfl⟩ | ⟨h8, rfl, rfl⟩⟩ := consume_ok.1 h4
      · exact .inr (.inl ⟨h2, rfl, h3, raw, h6, h7, h8, by simpa using h5⟩)
      · exact .inr (.inr (.inl ⟨h2, rfl, h3, raw, h7, h8, by simpa using h5⟩))
  | _ =>
    have h' : runCode _ s = _ := h
    obtain ⟨h1, h2, h3⟩ := runCode_next.1 h'
    exact ⟨h1, .inr (.inr (.inr (.inr (.inr (.inr (.inr ⟨h2, _, rfl, h3⟩))))))⟩

end Sys2Proof.Machine
end

