-- ==== Sys2Proof/Laws/PerInstr.lean ====
section
/-! SUPPORT. The per-instruction family: every well-formed instruction's word lies on its own row of spec/opcode_table.json. -/

namespace Sys2Proof.Laws.TableRow

/-- A row of the opcode table: its format's word, match and mask as numbers. -/
structure Row where
  width : Nat
  mtch : Nat
  mask : Nat
  deriving DecidableEq, Repr

/-- The rows of spec/opcode_table.json, `SAMPLE_W = 10` as there. -/
def rowOf : Instr → Row
  | .nop => ⟨18, 0x00000, 0x3FFFF⟩
  | .init _ => ⟨18, 0x10000, 0x30000⟩
  | .submit _ => ⟨18, 0x20000, 0x3FC00⟩
  | .poll => ⟨18, 0x30000, 0x3FFFF⟩
  | .digit1 => ⟨7, 0x11, 0x7F⟩
  | .digit2 => ⟨7, 0x21, 0x7F⟩
  | .digit3 => ⟨7, 0x41, 0x7F⟩
  | .digit4 => ⟨7, 0x12, 0x7F⟩
  | .digit5 => ⟨7, 0x22, 0x7F⟩
  | .digit6 => ⟨7, 0x42, 0x7F⟩
  | .digit7 => ⟨7, 0x14, 0x7F⟩
  | .digit8 => ⟨7, 0x24, 0x7F⟩
  | .digit9 => ⟨7, 0x44, 0x7F⟩
  | .digitStar => ⟨7, 0x18, 0x7F⟩
  | .digit0 => ⟨7, 0x28, 0x7F⟩
  | .digitHash => ⟨7, 0x48, 0x7F⟩

/-- A word lies on a row: its format's width, and under the mask the match. -/
def onRow (r : Row) : InstrWord → Prop
  | .req w => r.width = 18 ∧ w &&& BitVec.ofNat 18 r.mask = BitVec.ofNat 18 r.mtch
  | .code c => r.width = 7 ∧ c &&& BitVec.ofNat 7 r.mask = BitVec.ofNat 7 r.mtch

/-- The well-formed instruction's word lies on its row. -/
def Statement (i : Instr) : Prop := i.wf 10 = true → onRow (rowOf i) (encode i)

theorem nop : Statement .nop := fun _ => ⟨rfl, by decide⟩

theorem init (t : Word16) : Statement (.init t) := fun _ => ⟨rfl, by
  ext j hj
  simp only [reqWord, BitVec.getElem_and, BitVec.getElem_append, rowOf]
  split <;> interval_cases j <;> simp_all⟩

theorem submit (raw : Word16) : Statement (.submit raw) := fun h => ⟨rfl, by
  have hr : raw.toNat < 2 ^ 10 := by simpa [Instr.wf] using h
  ext j hj
  simp only [reqWord, BitVec.getElem_and, BitVec.getElem_append, rowOf]
  split
  · next hlt =>
    by_cases h10 : j < 10
    · interval_cases j <;> simp
    · have : raw[j] = false := by
        rw [BitVec.getElem_eq_testBit_toNat]
        exact Nat.testBit_lt_two_pow (lt_of_lt_of_le hr (Nat.pow_le_pow_right (by norm_num) (by omega)))
      rw [this]
      interval_cases j <;> simp_all
  · interval_cases j <;> simp_all⟩

theorem poll : Statement .poll := fun _ => ⟨rfl, by decide⟩
theorem digit1 : Statement .digit1 := fun _ => ⟨rfl, by decide⟩
theorem digit2 : Statement .digit2 := fun _ => ⟨rfl, by decide⟩
theorem digit3 : Statement .digit3 := fun _ => ⟨rfl, by decide⟩
theorem digit4 : Statement .digit4 := fun _ => ⟨rfl, by decide⟩
theorem digit5 : Statement .digit5 := fun _ => ⟨rfl, by decide⟩
theorem digit6 : Statement .digit6 := fun _ => ⟨rfl, by decide⟩
theorem digit7 : Statement .digit7 := fun _ => ⟨rfl, by decide⟩
theorem digit8 : Statement .digit8 := fun _ => ⟨rfl, by decide⟩
theorem digit9 : Statement .digit9 := fun _ => ⟨rfl, by decide⟩
theorem digitStar : Statement .digitStar := fun _ => ⟨rfl, by decide⟩
theorem digit0 : Statement .digit0 := fun _ => ⟨rfl, by decide⟩
theorem digitHash : Statement .digitHash := fun _ => ⟨rfl, by decide⟩

end Sys2Proof.Laws.TableRow
end

