-- ==== Sys2Proof/Laws/Requests.lean ====
section
/-! SUPPORT. Decoding, serving and stepping: what each can answer, said once. -/

namespace Sys2Proof

/-- The request words and what they decode to, one case per request operation. -/
theorem decodeRequest_ok {n : Nat} {w : Req} {i : Instr} :
    decodeRequest n w = .ok i ↔
      (reqOp w = 0b00#2 ∧ reqArg w = 0 ∧ i = .nop) ∨
      (reqOp w = 0b01#2 ∧ i = .init (reqArg w)) ∨
      (reqOp w = 0b10#2 ∧ rawFits n (reqArg w) = true ∧ i = .submit (reqArg w)) ∨
      (reqOp w = 0b11#2 ∧ reqArg w = 0 ∧ i = .poll) := by
  unfold decodeRequest
  have hop : reqOp w = 0b00#2 ∨ reqOp w = 0b01#2 ∨ reqOp w = 0b10#2 ∨ reqOp w = 0b11#2 := by
    generalize reqOp w = o
    revert o
    decide
  rcases hop with h | h | h | h
  · by_cases ha : reqArg w = 0#16 <;> simp [h, ha, @eq_comm Instr i]
  · simp [h, @eq_comm Instr i]
  · cases rawFits n (reqArg w) <;> simp [h, @eq_comm Instr i]
  · by_cases ha : reqArg w = 0#16 <;> simp [h, ha, @eq_comm Instr i]

/-- A Detection Code decodes to a row exactly when it is that row's code. -/
theorem decodeCode_ok {c : Code} {i : Instr} : decodeCode c = .ok i ↔ encode i = .code c := by
  constructor
  · intro h
    unfold decodeCode at h
    split at h
    · next row hrow =>
      have hm := List.mem_of_find?_eq_some hrow
      have hc := List.find?_some hrow
      obtain rfl : row.1 = c := by simpa using hc
      obtain rfl : row.2 = i := by simpa using h
      revert row
      decide
    · simp at h
  · intro h
    cases i <;> simp [encode] at h <;> subst h <;> decide

namespace Machine

variable {s t : State}

theorem serve_next {a : Agent} {w : Req} :
    serve a w s = .next t ↔
      ∃ i, decodeRequest s.cfg.sampleW w = .ok i ∧ permitted a i = true ∧ exec i s = .next t := by
  unfold serve issue
  cases decodeRequest s.cfg.sampleW w with
  | error r => simp
  | ok i => cases hp : permitted a i <;> simp [hp]

theorem serve_of {a : Agent} {w : Req} {i : Instr} (hd : decodeRequest s.cfg.sampleW w = .ok i)
    (hp : permitted a i = true) : serve a w s = exec i s := by
  simp [serve, issue, hd, hp]

/-- The request served next is the head of one agent's queue; the other queue stands as it was. -/
theorem nextRequest_some {a : Agent} {w : Req} {u : State} (h : nextRequest s = some (a, w, u)) :
    ∃ ps cs n, u = s.setRequests ps cs n ∧
      ((a = .producer ∧ s.producer = w :: ps ∧ s.consumer = cs) ∨
       (a = .consumer ∧ s.producer = ps ∧ s.consumer = w :: cs)) := by
  unfold nextRequest at h
  split at h
  · simp at h
  · next hp hc =>
    simp only [Option.some.injEq, Prod.mk.injEq] at h
    obtain ⟨rfl, rfl, rfl⟩ := h
    exact ⟨_, _, _, rfl, .inl ⟨rfl, hp, hc⟩⟩
  · next hp hc =>
    simp only [Option.some.injEq, Prod.mk.injEq] at h
    obtain ⟨rfl, rfl, rfl⟩ := h
    exact ⟨_, _, _, rfl, .inr ⟨rfl, hp, hc⟩⟩
  · next hp hc =>
    split at h <;> simp only [Option.some.injEq, Prod.mk.injEq] at h <;> obtain ⟨rfl, rfl, rfl⟩ := h
    · exact ⟨_, _, _, rfl, .inl ⟨rfl, hp, hc⟩⟩
    · exact ⟨_, _, _, rfl, .inr ⟨rfl, hp, hc⟩⟩

theorem nextRequest_none : nextRequest s = none ↔ s.producer = [] ∧ s.consumer = [] := by
  unfold nextRequest
  split
  · next hp hc => simp [hp, hc]
  · next hp hc => simp [hp]
  · next hp hc => simp [hc]
  · next hp hc => split <;> simp [hp]

/-- A step serves one request, or with none pending holds the state. -/
theorem step_eq (s : State) :
    (s.producer = [] ∧ s.consumer = [] ∧ step s = .next s) ∨
    (∃ a w u, nextRequest s = some (a, w, u) ∧ step s = serve a w u) := by
  unfold step serveNext
  cases hn : nextRequest s with
  | none =>
    obtain ⟨hp, hq⟩ := nextRequest_none.1 hn
    exact .inl ⟨hp, hq, rfl⟩
  | some p =>
    obtain ⟨a, w, u⟩ := p
    exact .inr ⟨a, w, u, rfl, rfl⟩

theorem runListing_cons (l : Line) (rest : List Line) (s : State) {t : State}
    (h : issue l.1 l.2 s = .next t) : runListing (l :: rest) s = runListing rest t := by
  simp [runListing, h]

/-- A listing runs as its first part and then its second. -/
theorem runListing_append {ls ms : List Line} {s t : State} (h : runListing ls s = .next t) :
    runListing (ls ++ ms) s = runListing ms t := by
  induction ls generalizing s with
  | nil => simpa [runListing] using congrArg (runListing ms) (by simpa [runListing] using h)
  | cons l rest ih =>
    simp only [List.cons_append, runListing] at h ⊢
    split at h
    · exact ih h
    · simp at h
    · simp at h

end Machine

end Sys2Proof
end

