-- ==== Sys2Proof/Laws/Schedules.lean ====
section
/-! SUPPORT. The small lemmas of schedules: what one more line adds to the samples submitted, to the POLLs and to the counts; and of the filter: what one more sample does to the recurrence and to the delay registers. -/

namespace Sys2Proof.Safety

open Sys2Proof.Machine

variable (ls : List Line) (l : Line) (raw : Word16) (B : Nat)

@[simp] theorem submitted_nil : submitted [] = [] := rfl
@[simp] theorem pollCount_nil : pollCount [] = 0 := rfl
@[simp] theorem sampleCounts_nil : sampleCounts B [] = (0, 0) := rfl

@[simp] theorem submitted_poll : submitted (ls ++ [(.consumer, .poll)]) = submitted ls := by
  simp [submitted, rawOf]

@[simp] theorem submitted_submit : submitted (ls ++ [(.producer, .submit raw)]) = submitted ls ++ [raw] := by
  simp [submitted, rawOf]

@[simp] theorem pollCount_poll : pollCount (ls ++ [(.consumer, .poll)]) = pollCount ls + 1 := by
  simp [pollCount]

@[simp] theorem pollCount_submit : pollCount (ls ++ [(.producer, .submit raw)]) = pollCount ls := by
  simp [pollCount]

@[simp] theorem sampleCounts_concat :
    sampleCounts B (ls ++ [l]) = countLine B (sampleCounts B ls) l := by
  simp [sampleCounts]

/-- No more samples are consumed than accepted, nor accepted than the block holds. -/
theorem sampleCounts_le : (sampleCounts B ls).2 ≤ (sampleCounts B ls).1 ∧ (sampleCounts B ls).1 ≤ B := by
  induction ls using List.reverseRecOn with
  | nil => simp
  | append_singleton ls l ih =>
    rw [sampleCounts_concat, countLine]
    split <;> split <;> (try dsimp only) <;> omega

/-- One more line consumes no sample fewer. -/
theorem sampleCounts_mono : (sampleCounts B ls).2 ≤ (sampleCounts B (ls ++ [l])).2 := by
  rw [sampleCounts_concat, countLine]
  split <;> split <;> (try dsimp only) <;> omega

/-! ### The buffer's first entries and the recurrence -/

variable {s t : State} {n : Nat}

theorem firstEntries_congr (h : ∀ i < n, Memory.read s.buf i = Memory.read t.buf i) :
    firstEntries s n = firstEntries t n :=
  List.filterMap_congr fun i hi => h i (List.mem_range.1 hi)

theorem firstEntries_succ {raw : Word16} (h : Memory.read s.buf n = some raw) :
    firstEntries s (n + 1) = firstEntries s n ++ [raw] := by
  simp [firstEntries, List.range_succ, h]

/-- Where the buffer holds a list of samples, its first entries are the list's. -/
theorem firstEntries_eq_take {raws : List Word16} (h : ∀ i < n, Memory.read s.buf i = raws[i]?)
    (hn : n ≤ raws.length) : firstEntries s n = raws.take n := by
  induction n with
  | zero => rfl
  | succ n ih =>
    have hlt : n < raws.length := hn
    rw [firstEntries_succ ((h n n.lt_succ_self).trans (List.getElem?_eq_getElem hlt)),
      ih (fun i hi => h i (Nat.lt_succ_of_lt hi)) hlt.le, List.take_concat_get' raws n hlt]

theorem goertzel_concat (mode : OvfMode) (coeff : Int) (xs : List Int) (x : Int) :
    goertzel mode coeff (xs ++ [x]) = goertzelStep mode coeff (goertzel mode coeff xs) x := by
  simp [goertzel]

theorem centeredAll_concat (c : Config) (raws : List Word16) (raw : Word16) :
    centeredAll c (raws ++ [raw]) = centeredAll c raws ++ [(raw.toNat : Int) - 2 ^ (c.sampleW - 1)] := by
  simp [centeredAll]

/-- One sample through the bank advances the recurrence of every resonator by one (R106, R108). -/
theorem filterSample_follows {raw : Word16} {raws : List Word16} {k : Fin 7}
    (h : ((s.d1.get k).toInt, (s.d2.get k).toInt) =
      goertzel s.cfg.ovfMode (s.cfg.coeff.get k).toInt (centeredAll s.cfg raws)) :
    (((filterSample raw s).d1.get k).toInt, ((filterSample raw s).d2.get k).toInt) =
      goertzel s.cfg.ovfMode (s.cfg.coeff.get k).toInt (centeredAll s.cfg (raws ++ [raw])) := by
  have hr := regInt_regWord_narrow16 s.cfg.ovfMode
    (newOutput (centered s.cfg.sampleW raw) (s.d1.get k).toInt (s.d2.get k).toInt (s.cfg.coeff.get k).toInt)
  rw [centeredAll_concat, goertzel_concat, ← h]
  simp only [goertzelStep, filterSample, State.setDelays_d1, State.setDelays_d2, Lanes.get_ofFn, filteredD1]
  unfold regInt at *
  rw [hr]
  simp [newOutput, feedback, centered, scale, mul_comm]

end Sys2Proof.Safety
end

