-- ==== Sys2Proof/Tests/Slice0.lean ====
section
/-! SUPPORT. The model's own tests. Expected values come from 95_test_vectors.md (the V and P numbers), the tables of 30_encoding.md, or hand calculation from a rule; the witnesses show that the hypotheses of the statements of Obligations.lean can be met, each clause at its boundary. -/

namespace Sys2Proof.Tests

open Sys2Proof.Machine Sys2Proof.Safety

/-! ### Helpers -/

/-- The configuration T16 of 95_test_vectors.md section 2. -/
def t16 : Config := { defaultConfig with
  blockSize := 16
  coeff := ⟨30274#16, 23170#16, 12540#16, 0#16, BitVec.ofInt 16 (-12540), BitVec.ofInt 16 (-23170), BitVec.ofInt 16 (-30274)⟩
  finalShift := 4 }

/-- A block of one sample, which every consuming POLL completes. -/
def one : Config := { defaultConfig with blockSize := 1 }

/-- The state after `INIT 50` with the given counters and buffer. -/
def started (c : Config) (cnt idx : Nat) (buf : Memory) : State :=
  { startUp 50 (State.afterReset c) with cnt := cnt, idx := idx, buf := buf }

/-- Entries 0 to 15, each the mid-scale sample. -/
def sixteen : Memory := (List.range 16).map fun j => (j, 512#16)

/-- The end of program P1 before its last POLL: 16 accepted, 15 consumed, registers as in the 15th row. -/
def endOfP1 : State := { started t16 16 15 (Memory.write sixteen 15 371#16) with
  d1 := ⟨1, BitVec.ofInt 16 (-797), 0, 0, 0, 798, 1⟩
  d2 := ⟨BitVec.ofInt 16 (-142), BitVec.ofInt 16 (-142), BitVec.ofInt 16 (-141), BitVec.ofInt 16 (-141),
    BitVec.ofInt 16 (-141), BitVec.ofInt 16 (-142), BitVec.ofInt 16 (-142)⟩ }

/-- An empty block with `READY = 1` meets the invariant. -/
theorem started_inv {c : Config} (h : configWf c = true) : Inv (started c 0 0 []) := by
  have hb : 1 ≤ c.blockSize := by
    unfold configWf at h
    simp only [Bool.and_eq_true, decide_eq_true_eq] at h
    omega
  exact ⟨h, rfl, by simp [started], by simp [started],
    fun _ => ⟨Nat.le_refl _, Nat.zero_le _, hb⟩, fun _ i hi => absurd hi (Nat.not_lt_zero i),
    fun _ _ => ⟨rfl, rfl⟩, fun _ => (by decide : (50 : Word16) ≠ 0)⟩

/-! ### WellFormed: each check refuses an ill-formed term -/

theorem test_wf_init_zero_refused : (Instr.init 0).wf 10 = false := by decide
theorem test_wf_submit_reserved_bit_refused : (Instr.submit 1024).wf 10 = false := by decide
theorem test_wf_bounds_accepted :
    (Instr.init 1).wf 10 = true ∧ (Instr.init 65535).wf 10 = true ∧ (Instr.submit 1023).wf 10 = true
      ∧ (Instr.submit 65535).wf 16 = true := by decide

/-- R9, one ill-formed configuration for each of its checks. -/
theorem test_config_checks :
    configWf defaultConfig = true ∧ configWf t16 = true
      ∧ configWf { defaultConfig with blockSize := 0 } = false
      ∧ configWf { defaultConfig with sampleW := 0 } = false
      ∧ configWf { defaultConfig with sampleW := 17 } = false
      ∧ configWf { defaultConfig with accW := 31 } = false
      ∧ configWf { defaultConfig with finalShift := 32 } = false
      ∧ configWf { defaultConfig with lowMask := 0x1F } = false
      ∧ configWf { defaultConfig with dtab := defaultDtab.drop 1 } = false
      ∧ configWf { defaultConfig with dtab := (0x21#7, .key1) :: defaultDtab.drop 1 } = false
      ∧ configWf { defaultConfig with dtab := (0x11#7, .key2) :: defaultDtab.drop 1 } = false
      ∧ configWf { defaultConfig with dtab := (0x01#7, .key1) :: defaultDtab.drop 1 } = false := by decide

/-! ### Decode: words written out bit by bit from 30_encoding.md R70 to R78 -/

theorem test_decode_nop : decodeBytes 10 [0b00000000#8, 0b00000000#8, 0b00#8] = .ok .nop := by decide
theorem test_decode_init_100 : decodeBytes 10 [0b01100100#8, 0b00000000#8, 0b01#8] = .ok (.init 100) := by decide
theorem test_decode_init_65535 : decodeBytes 10 [0b11111111#8, 0b11111111#8, 0b01#8] = .ok (.init 65535) := by decide
theorem test_decode_submit_653 : decodeBytes 10 [0b10001101#8, 0b00000010#8, 0b10#8] = .ok (.submit 653) := by decide
theorem test_decode_poll : decodeBytes 10 [0b00000000#8, 0b00000000#8, 0b11#8] = .ok .poll := by decide
theorem test_decode_digits :
    decodeBytes 10 [0b0010001#8] = .ok .digit1 ∧ decodeBytes 10 [0b0100001#8] = .ok .digit2
      ∧ decodeBytes 10 [0b1000001#8] = .ok .digit3 ∧ decodeBytes 10 [0b0010010#8] = .ok .digit4
      ∧ decodeBytes 10 [0b0100010#8] = .ok .digit5 ∧ decodeBytes 10 [0b1000010#8] = .ok .digit6
      ∧ decodeBytes 10 [0b0010100#8] = .ok .digit7 ∧ decodeBytes 10 [0b0100100#8] = .ok .digit8
      ∧ decodeBytes 10 [0b1000100#8] = .ok .digit9 ∧ decodeBytes 10 [0b0011000#8] = .ok .digitStar
      ∧ decodeBytes 10 [0b0101000#8] = .ok .digit0 ∧ decodeBytes 10 [0b1001000#8] = .ok .digitHash := by decide
theorem test_decode_rejects :
    decodeBytes 10 [0x01#8, 0x00#8, 0b00#8] = .error .reservedBits
      ∧ decodeBytes 10 [0x00#8, 0x04#8, 0b10#8] = .error .reservedBits
      ∧ decodeBytes 10 [0x01#8, 0x00#8, 0b11#8] = .error .reservedBits
      ∧ decodeBytes 10 [0x00#8, 0x00#8, 0b100#8] = .error .reservedBits
      ∧ decodeBytes 10 [0b10010001#8] = .error .reservedBits
      ∧ decodeBytes 10 [0x23#8] = .error .unlistedCode
      ∧ decodeBytes 10 [] = .error .badLength ∧ decodeBytes 10 [0#8, 0#8] = .error .badLength := by decide
/-- Every row of spec/opcode_table.json by its `match`, an operand of 1 where `INIT` needs one. -/
theorem test_decode_table_words :
    decodeTableWord 18 0x00000 = some .nop ∧ decodeTableWord 18 0x10001 = some (.init 1)
      ∧ decodeTableWord 24 0x20000 = some (.submit 0) ∧ decodeTableWord 24 0x30000 = some .poll
      ∧ decodeTableWord 8 0x11 = some .digit1 ∧ decodeTableWord 8 0x48 = some .digitHash
      ∧ decodeTableWord 8 0x7F = none ∧ decodeTableWord 24 0x40000 = none := by decide
/-- A table word presented to the block is the one the next step runs (`INIT 100` as the first after reset, V38b). -/
theorem test_fetch_runs_init :
    nextState? (step (State.reset.withFetchWord 24 0x10064)) = some (startUp 100 State.reset) := by decide
/-- A `DCODE7` word is the Detection Code of the POLL that the next step serves: the twelve rows of R78, each first after
reset, report their symbols (R76). -/
theorem test_fetch_runs_codes :
    ([0x11, 0x21, 0x41, 0x12, 0x22, 0x42, 0x14, 0x24, 0x44, 0x18, 0x28, 0x48].map fun w =>
        (nextState? (step (State.reset.withFetchWord 8 w))).map State.responses) =
      [some [0x31], some [0x32], some [0x33], some [0x34], some [0x35], some [0x36], some [0x37], some [0x38],
        some [0x39], some [0x2A], some [0x30], some [0x23]] := by decide
/-- R80: a code that is no row decodes to none and clears LATCH. -/
theorem test_fetch_other_code :
    (nextState? (step ({ State.reset with latch := some .key5 }.withFetchWord 8 0x7F))).map
      (fun t => (t.latch, t.responses, t.cnt, t.idx)) = some (none, [0x00], 0, 0) := by decide

/-! ### Arithmetic -/

/-- V10 to V19: `D1'` under WRAP. -/
theorem test_filter_wrap :
    filteredD1 .wrap 141 0 0 27980 = 141 ∧ filteredD1 .wrap 0 141 0 23170 = 199
      ∧ filteredD1 .wrap 0 1 0 27980 = 1 ∧ filteredD1 .wrap 0 (-1) 0 27980 = BitVec.ofInt 16 (-2)
      ∧ filteredD1 .wrap 2 (-3) 5 (-12540) = BitVec.ofInt 16 (-1)
      ∧ filteredD1 .wrap (-7) 100 50 0 = BitVec.ofInt 16 (-57)
      ∧ filteredD1 .wrap 0 30000 (-30000) 27980 = 15696
      ∧ filteredD1 .wrap 0 (-30000) 30000 27980 = BitVec.ofInt 16 (-15697)
      ∧ filteredD1 .wrap 511 20000 (-20000) 13085 = BitVec.ofInt 16 (-29053)
      ∧ filteredD1 .wrap 0 0x8000 0 32767 = 2 := by decide
/-- V16 to V22: `D1'` under SAT, and V20 to V22 under WRAP. -/
theorem test_filter_sat :
    filteredD1 .sat 0 30000 (-30000) 27980 = 32767 ∧ filteredD1 .sat 0 (-30000) 30000 27980 = 0x8000
      ∧ filteredD1 .sat 511 20000 (-20000) 13085 = 32767 ∧ filteredD1 .sat 0 0x8000 0 32767 = 0x8000
      ∧ filteredD1 .sat (-32768) 0x8000 32767 0x8000 = 1 ∧ filteredD1 .sat 32767 0x8000 0x8000 0x8000 = 32767
      ∧ filteredD1 .sat 511 32767 0x8000 32767 = 32767
      ∧ filteredD1 .wrap (-32768) 0x8000 32767 0x8000 = 1
      ∧ filteredD1 .wrap 32767 0x8000 0x8000 0x8000 = BitVec.ofInt 16 (-1)
      ∧ filteredD1 .wrap 511 32767 0x8000 32767 = BitVec.ofInt 16 (-32261) := by decide
/-- The centering lines below the table of V10 to V22. -/
theorem test_centering :
    centered 10 0 = -512 ∧ centered 10 511 = -1 ∧ centered 10 512 = 0 ∧ centered 10 1023 = 511
      ∧ centered 16 0 = -32768 ∧ centered 16 65535 = 32767 ∧ centered 1 0 = -1 ∧ centered 1 1 = 0 := by decide
/-- V25 to V30 (`FINAL_SHIFT` 4 in T16, 16 in DEFAULT). -/
theorem test_magnitude_ordinary :
    magnitude t16 (-1127) (-797) 23170 = 39682 ∧ magnitude t16 (-1128) 798 (-23170) = 39773
      ∧ magnitude t16 2 1 30274 = 0 ∧ magnitude defaultConfig 0 0 27980 = 0
      ∧ magnitude defaultConfig 12000 9000 26956 = 721
      ∧ magnitude defaultConfig 1000 (-1000) 27980 = 56 := by decide
/-- V31 to V35d. -/
theorem test_magnitude_corners :
    magnitude { defaultConfig with finalShift := 0 } (-1) 0 27980 = 1
      ∧ magnitude { defaultConfig with finalShift := 0 } (-100) (-100) 32767 = 0
      ∧ magnitude defaultConfig 32767 32767 0 = 32766 ∧ magnitude defaultConfig 0x8000 0x8000 0 = -32768
      ∧ magnitude { defaultConfig with accW := 34 } 0x8000 0x8000 0 = 32768
      ∧ magnitude defaultConfig 0x8000 0x8000 0x8000 = 0
      ∧ magnitude { defaultConfig with accW := 34 } 0x8000 0x8000 0x8000 = 65536
      ∧ magnitude defaultConfig 0x8000 32767 0x8000 = 0 := by decide
/-- The threshold and packing lines below V35d. -/
theorem test_threshold_and_packing :
    exceeds 39682 39681 = true ∧ exceeds 39682 39682 = false ∧ exceeds (-32768) 1 = false ∧ exceeds 0 1 = false
      ∧ packCode (Lanes.ofFn fun k => exceeds ((Lanes.mk 8 1602 5 6 9 1604 9).get k) 7) = 0x73 := by decide

/-! ### The operations, one step each -/

/-- V38a. -/
theorem test_nop_at_reset : nextState? (exec .nop State.reset) = some State.reset := by decide
/-- V38e: INIT between blocks. -/
theorem test_init_between_blocks :
    (nextState? (exec (.init 60) { started t16 0 0 [] with latch := some .key5 })).map
      (fun t => (t.thresh, t.latch, t.ready, t.cnt, t.idx)) = some (60, none, true, 0, 0) := by decide
/-- V38d, V38f, V38g. -/
theorem test_init_refused :
    refusal? (exec (.init 0) State.reset) = some .badThreshold
      ∧ refusal? (exec (.init 60) (started t16 1 0 [(0, 653)])) = some .initInFlight
      ∧ refusal? (exec (.init 60) (started t16 1 1 [(0, 653)])) = some .initInFlight := by decide
/-- V2: the last free entry. -/
theorem test_submit_last_entry :
    (nextState? (exec (.submit 0) (started t16 15 7 (sixteen.take 15)))).map
      (fun t => (t.cnt, t.idx, Memory.read t.buf 15, Memory.read t.buf 14)) = some (16, 7, some 0, some 512) := by
  decide
/-- V3, V5, V6. -/
theorem test_submit_dropped_or_refused :
    nextState? (exec (.submit 1023) (started t16 16 7 sixteen)) = some (started t16 16 7 sixteen)
      ∧ refusal? (exec (.submit 5) State.reset) = some .notReady
      ∧ refusal? (serve .producer 0x20400 (started t16 0 0 [])) = some .reservedBits := by decide
/-- V39b: one sample inside a block. -/
theorem test_poll_one_sample :
    (nextState? (exec .poll { started t16 3 2 [(0, 512), (1, 653), (2, 512)] with d1 := Lanes.fill 141 })).map
      (fun t => (t.idx, t.cnt, t.d1.r1, t.d2.r1, t.responses)) = some (3, 3, 199, 141, [0x00]) := by decide
/-- P1, the 16th POLL. -/
theorem test_poll_completes_P1 :
    (nextState? (exec .poll endOfP1)).map (fun t => (t.cnt, t.idx, t.latch, t.responses)) =
        some (0, 0, some .key5, [0x35])
      ∧ (nextState? (exec .poll endOfP1)).map (fun t => (t.d1, t.d2)) = some (zeroLanes, zeroLanes) := by decide
/-- V37 through the codes of `5`, `*` and a code that decodes to `none`. -/
theorem test_digit_rows_debounce :
    (nextState? (exec .digit5 (started t16 0 0 []))).map (fun t => (t.latch, t.responses)) = some (some .key5, [0x35])
      ∧ (nextState? (exec .digit5 { started t16 0 0 [] with latch := some .key5 })).map
          (fun t => (t.latch, t.responses)) = some (some .key5, [0x00])
      ∧ (nextState? (exec .digitStar { started t16 0 0 [] with latch := some .key5 })).map
          (fun t => (t.latch, t.responses)) = some (some .star, [0x2A]) := by decide
/-- V36 and R76 through the other rows, each from an empty latch. -/
theorem test_digit_rows_symbols :
    ([Instr.digit1, .digit2, .digit3, .digit4, .digit6, .digit7, .digit8, .digit9, .digit0, .digitHash].map
        fun i => (nextState? (exec i (started t16 0 0 []))).map State.responses) =
      [some [0x31], some [0x32], some [0x33], some [0x34], some [0x36], some [0x37], some [0x38], some [0x39],
        some [0x30], some [0x23]] := by decide
/-- V39e and R71. -/
theorem test_wrong_agent :
    refusal? (serve .producer 0x30000 (started t16 0 0 [])) = some .wrongAgent
      ∧ refusal? (serve .consumer 0x20000 (started t16 0 0 [])) = some .wrongAgent := by decide
/-- V44a and V44b: the two orders. -/
theorem test_coincident_orders :
    (nextState? (runListing [(.producer, .submit 600), (.consumer, .poll)] (started t16 3 3 (sixteen.take 3)))).map
        (fun t => (t.cnt, t.idx)) = some (4, 4)
      ∧ (nextState? (runListing [(.consumer, .poll), (.producer, .submit 600)] (started t16 3 3 (sixteen.take 3)))).map
        (fun t => (t.cnt, t.idx)) = some (4, 3)
      ∧ (nextState? (runListing [(.producer, .submit 600), (.consumer, .poll)] (started t16 16 15 sixteen))).map
        (fun t => (t.cnt, t.idx)) = some (0, 0)
      ∧ (nextState? (runListing [(.consumer, .poll), (.producer, .submit 600)] (started t16 16 15 sixteen))).map
        (fun t => (t.cnt, t.idx)) = some (1, 0) := by decide
/-- R83, R84: lines of the listings of section 4. -/
theorem test_assembler_lines :
    parseLine 10 "C: INIT 50  ; 0x10032".toList = some [(.consumer, .init 50)]
      ∧ parseLine 10 "P: SUBMIT 0x28D".toList = some [(.producer, .submit 653)]
      ∧ parseLine 10 "FEED 512 -> none".toList = some [(.producer, .submit 512), (.consumer, .poll)]
      ∧ parseLine 10 "POLLN 2".toList = some [(.consumer, .poll), (.consumer, .poll)]
      ∧ parseLine 10 "P: SUBMIT 1024".toList = none := by decide

/-! ### Witnesses: the hypotheses of the statements of Obligations.lean, met together -/

theorem test_witness_wf : (Instr.submit 1023).wf 10 = true ∧ (Instr.submit 1).wf 1 = true := by decide
theorem test_witness_decoded : decodeWord 10 (.req 0x203FF) = .ok (.submit 1023) ∧ decodeWord 10 (.code 0x48) = .ok .digitHash := by
  decide
theorem test_witness_only_request_producer :
    let s := { started t16 0 0 [] with producer := [0x203FF] }
    decodeRequest s.cfg.sampleW 0x203FF = .ok (.submit 1023) ∧ s.producer = 0x203FF :: []
      ∧ s.consumer = [] ∧ permitted .producer (.submit 1023) = true := by decide
theorem test_witness_only_request_consumer :
    let s := { State.reset with consumer := [0x10064, 0x30000] }
    decodeRequest s.cfg.sampleW 0x10064 = .ok (.init 100) ∧ s.producer = []
      ∧ s.consumer = 0x10064 :: [0x30000] ∧ permitted .consumer (.init 100) = true := by decide
theorem test_witness_coincident :
    let s := { started t16 3 3 (sixteen.take 3) with producer := [0x20258], consumer := [0x30000] }
    s.producer = 0x20258 :: [] ∧ s.consumer = 0x30000 :: [] := by decide
theorem test_witness_idle : State.reset.producer = [] ∧ State.reset.consumer = [] := by decide
/-- Two groups exchanged: a well-formed table whose codes are not those of the opcode table's rows. -/
def exchanged : Config := { defaultConfig with
  lowMask := 0x78
  highMask := 0x07
  dtab := [(0x09, .key1), (0x0A, .key2), (0x0C, .key3), (0x11, .key4), (0x12, .key5), (0x14, .key6),
    (0x41, .key7), (0x42, .key8), (0x44, .key9), (0x21, .star), (0x22, .key0), (0x24, .hash)] }

/-- What every clause of StepRunsAPresentedCode assumes of the state: a POLL about to take a block's last sample. -/
def beforeLastPoll (s : State) : Prop :=
  s.producer = [] ∧ s.consumer = 0x30000 :: [] ∧ configWf s.cfg = true ∧ s.ready = true ∧ s.idx < s.cnt
    ∧ s.idx + 1 = s.cfg.blockSize ∧ Memory.read s.buf s.idx = some 512

/-- A row of the opcode table whose symbol is listed, with LATCH empty and holding it. -/
theorem test_witness_presented_code :
    let s := (started t16 0 0 []).withFetchWord 8 0x22
    beforeLastPoll s ∧ decodeCode (detectionCode (filterSample 512 s)) = .ok .digit5
      ∧ (detectionCode (filterSample 512 s), .key5) ∈ s.cfg.dtab ∧ s.latch ≠ some .key5
      ∧ ({ s with latch := some .key5 } : State).latch = some .key5 := by
  unfold beforeLastPoll; decide
/-- No row and not listed. -/
theorem test_witness_presented_other_code :
    let s := (started t16 0 0 []).withFetchWord 8 0x7F
    beforeLastPoll s ∧ ∀ d ∈ allSymbols, (detectionCode (filterSample 512 s), d) ∉ s.cfg.dtab := by
  unfold beforeLastPoll; decide
/-- No row, but listed by the configured table. -/
theorem test_witness_presented_listed_code :
    let s := (started exchanged 0 0 []).withFetchWord 8 0x09
    beforeLastPoll s ∧ detectionCode (filterSample 512 s) = 0x09 ∧ (0x09, .key1) ∈ s.cfg.dtab
      ∧ s.latch ≠ some .key1 ∧ decodeCode 0x09 = .error .unlistedCode := by
  unfold beforeLastPoll; decide
/-- One request for each reason of R174. -/
theorem test_witness_refusals :
    refusal? (serve .consumer 0x00000 { State.reset with cfg := { defaultConfig with blockSize := 0 } }) = some .badConfig
      ∧ refusal? (serve .producer 0x00000 State.reset) = some .wrongAgent
      ∧ refusal? (serve .consumer 0x00001 State.reset) = some .reservedBits
      ∧ refusal? (serve .consumer 0x10000 State.reset) = some .badThreshold
      ∧ refusal? (serve .consumer 0x30000 State.reset) = some .notReady
      ∧ refusal? (serve .consumer 0x1003C (started t16 1 0 [(0, 653)])) = some .initInFlight := by decide
theorem test_witness_nop : configWf State.reset.cfg = true := by decide
theorem test_witness_init :
    (configWf State.reset.cfg = true ∧ (1 : Word16) ≠ 0 ∧ State.reset.ready = false)
      ∧ (let s := started t16 0 0 []
         configWf s.cfg = true ∧ (65535 : Word16) ≠ 0 ∧ s.ready = true ∧ s.cnt = 0 ∧ s.idx = 0)
      ∧ (let s := started t16 1 0 [(0, 653)]
         configWf s.cfg = true ∧ (60 : Word16) ≠ 0 ∧ s.ready = true ∧ s.cnt ≠ 0) := by decide
/-- Where two reasons of R174 meet: INIT 0 with a block in flight, a reserved bit while `READY = 0`; both refused. -/
theorem test_witness_two_reasons :
    (refusal? (exec (.init 0) (started t16 1 0 [(0, 653)]))).isSome = true
      ∧ State.reset.ready = false ∧ ¬ (1024 : Word16).toNat < 2 ^ State.reset.cfg.sampleW
      ∧ (refusal? (exec (.submit 1024) State.reset)).isSome = true := by decide
theorem test_witness_init_between_blocks : Inv (started t16 0 0 []) ∧ (started t16 0 0 []).ready = true
    ∧ (started t16 0 0 []).cnt = 0 ∧ (started t16 0 0 []).idx = 0 ∧ (60 : Word16) ≠ 0 :=
  ⟨started_inv (by decide), rfl, rfl, rfl, by decide⟩
theorem test_witness_submit_clauses :
    (configWf State.reset.cfg = true ∧ State.reset.ready = false ∧ (1023 : Word16).toNat < 2 ^ State.reset.cfg.sampleW)
      ∧ (let s := started t16 15 0 (sixteen.take 15)
         configWf s.cfg = true ∧ s.ready = true ∧ ¬ (1024 : Word16).toNat < 2 ^ s.cfg.sampleW)
      ∧ (let s := started t16 15 0 (sixteen.take 15)
         configWf s.cfg = true ∧ s.ready = true ∧ (1023 : Word16).toNat < 2 ^ s.cfg.sampleW ∧ s.cnt < s.cfg.blockSize)
      ∧ (let s := started t16 16 0 sixteen
         configWf s.cfg = true ∧ s.ready = true ∧ (1023 : Word16).toNat < 2 ^ s.cfg.sampleW
           ∧ ¬ s.cnt < s.cfg.blockSize) := by decide
theorem test_witness_poll_empty :
    let s := started t16 3 3 (sixteen.take 3)
    configWf s.cfg = true ∧ s.ready = true ∧ ¬ s.idx < s.cnt := by decide
theorem test_witness_poll_inside :
    let s := started t16 15 14 (sixteen.take 15)
    configWf s.cfg = true ∧ s.ready = true ∧ s.idx < s.cnt ∧ s.idx < s.cfg.blockSize ∧ s.idx + 1 ≠ s.cfg.blockSize
      ∧ Memory.read s.buf s.idx = some 512 := by decide
theorem test_witness_poll_completes :
    configWf endOfP1.cfg = true ∧ endOfP1.ready = true ∧ endOfP1.idx < endOfP1.cnt
      ∧ endOfP1.idx + 1 = endOfP1.cfg.blockSize ∧ Memory.read endOfP1.buf endOfP1.idx = some 371 := by decide
theorem test_witness_digit_rows :
    let s := started t16 0 0 []
    State.reset.ready = false ∧ configWf State.reset.cfg = true
      ∧ encode .digit5 = .code 0x22 ∧ configWf s.cfg = true ∧ s.ready = true ∧ (0x22, .key5) ∈ s.cfg.dtab
      ∧ s.latch ≠ some .key5 ∧ ({ s with latch := some .key5 } : State).latch = some .key5 := by decide
/-- The third clause: under the exchanged table no entry has the code 0x48 of `DIGIT_HASH`. -/
theorem test_witness_digit_row_unlisted :
    encode .digitHash = .code 0x48 ∧ configWf exchanged = true ∧ (started exchanged 0 0 []).ready = true
      ∧ ∀ d ∈ allSymbols, (0x48, d) ∉ exchanged.dtab := by decide
theorem test_witness_not_ready :
    configWf State.reset.cfg = true ∧ State.reset.ready = false := by decide
/-- An instruction of each kind that completes (hypotheses of the whole-machine rules), before and after the INIT. -/
theorem test_witness_exec_next :
    (∃ t, exec .nop State.reset = .next t) ∧ (∃ t, exec (.init 7) State.reset = .next t)
      ∧ (∃ t, exec (.submit 9) (started t16 0 0 []) = .next t)
      ∧ (∃ t, exec (.submit 9) (started t16 16 0 sixteen) = .next t)
      ∧ (∃ t, exec .poll (started t16 0 0 []) = .next t)
      ∧ (∃ t, exec .poll (started t16 15 14 (sixteen.take 15)) = .next t)
      ∧ (∃ t, exec .digit7 (started t16 0 0 []) = .next t) :=
  ⟨⟨_, rfl⟩, ⟨_, rfl⟩, ⟨_, rfl⟩, ⟨_, rfl⟩, ⟨_, rfl⟩, ⟨_, rfl⟩, ⟨_, rfl⟩⟩
theorem test_witness_ready_step :
    (started t16 0 0 []).ready = true ∧ ∃ t, step (started t16 0 0 []) = .next t := ⟨rfl, _, rfl⟩
/-- A POLL that answers `'5'` (hypotheses of EventsOnlyAtBlockEnds). -/
theorem test_witness_event :
    ∃ t, exec .poll endOfP1 = .next t ∧ t.responses = endOfP1.responses ++ [0x35] ∧ (0x35 : Rsp) ≠ 0x00 := by
  have h := test_poll_completes_P1.1
  cases ho : exec .poll endOfP1 with
  | next t =>
    simp only [ho, nextState?, Option.map_some, Option.some.injEq, Prod.mk.injEq] at h
    exact ⟨t, rfl, h.2.2.2, by decide⟩
  | fault f => simp [ho, nextState?] at h
  | refused r => simp [ho, nextState?] at h

/-- A state of the invariant inside a block. -/
theorem test_witness_inv_inside : Inv (started t16 3 3 (sixteen.take 3)) :=
  ⟨by decide, by decide, by decide, by decide, fun _ => by decide, fun _ => by decide, fun _ => by decide,
    fun _ => by decide⟩
/-- A full buffer whose last sample is next, the situation of V44b. -/
theorem test_witness_inv_full : Inv (started t16 16 15 sixteen) :=
  ⟨by decide, by decide, by decide, by decide, fun _ => by decide, fun _ => by decide, fun _ => by decide,
    fun _ => by decide⟩
/-- The two situations of R64 and a third one. -/
theorem test_witness_order_situations :
    (let s := started t16 3 3 (sixteen.take 3); s.idx = s.cnt ∧ s.cnt < s.cfg.blockSize)
      ∧ (let s := started t16 16 15 sixteen; s.cnt = s.cfg.blockSize ∧ s.idx + 1 = s.cfg.blockSize)
      ∧ (let s := started t16 16 14 sixteen; s.idx ≠ s.cnt ∧ s.idx + 1 ≠ s.cfg.blockSize)
      ∧ (600 : Word16).toNat < 2 ^ t16.sampleW := by decide
theorem test_witness_run :
    ∃ t, Sys2Proof.core.run 2 { State.reset with consumer := [0x10064, 0x30000] } = .next t := ⟨_, rfl⟩
/-- A step from a state of the invariant, READY set. -/
theorem test_witness_inv_step :
    Inv (started t16 0 0 []) ∧ (started t16 0 0 []).ready = true ∧ ∃ t, step (started t16 0 0 []) = .next t :=
  ⟨started_inv (by decide), rfl, _, rfl⟩
theorem test_witness_widths : 1 ≤ t16.blockSize ∧ t16.blockSize < 2 ^ 5 ∧ cntW t16 = 5 ∧ cntW defaultConfig = 8 := by
  decide
/-- Lines of a schedule, from their samples. -/
theorem submit_line {sampleW : Nat} {raw : Word16} (h : raw.toNat < 2 ^ sampleW) :
    SampleLine sampleW (.producer, .submit raw) := .inr ⟨raw, h, rfl⟩
theorem poll_line {sampleW : Nat} : SampleLine sampleW (.consumer, .poll) := .inl rfl

/-- A block of two samples. -/
def two : Config := { defaultConfig with blockSize := 2 }

/-- A schedule with more POLLs than `BLOCK_SIZE`, most of which find no sample, and an overrun. -/
theorem test_witness_schedule :
    let ls : List Line := [(.consumer, .poll), (.consumer, .poll), (.producer, .submit 0), (.consumer, .poll),
      (.consumer, .poll), (.producer, .submit 1023), (.producer, .submit 7)]
    Inv (started two 0 0 []) ∧ (started two 0 0 []).ready = true ∧ (started two 0 0 []).cnt = 0
      ∧ (∀ l ∈ ls, SampleLine two.sampleW l) ∧ sampleCounts two.blockSize ls = (2, 1) ∧ two.blockSize = 2
      ∧ pollCount ls = 4 ∧ submitted ls = [0, 1023, 7] := by
  refine ⟨started_inv (by decide), rfl, rfl, ?_, by decide, rfl, by decide, by decide⟩
  simp only [List.forall_mem_cons]
  exact ⟨poll_line, poll_line, submit_line (by decide), poll_line, poll_line, submit_line (by decide),
    submit_line (by decide), List.forall_mem_nil _⟩
/-- The Producer ahead of the Consumer, all samples at mid-scale. -/
theorem test_witness_silence :
    let ls : List Line := [(.producer, .submit 512), (.producer, .submit 512), (.consumer, .poll)]
    Inv (started two 0 0 []) ∧ (∀ l ∈ ls, SampleLine two.sampleW l)
      ∧ (∀ raw ∈ submitted ls, raw.toNat = 2 ^ (two.sampleW - 1))
      ∧ sampleCounts two.blockSize ls = (2, 1) ∧ two.blockSize = 2 := by
  refine ⟨started_inv (by decide), ?_, by simp [submitted, rawOf, two, defaultConfig], by decide, rfl⟩
  simp only [List.forall_mem_cons]
  exact ⟨submit_line (by decide), submit_line (by decide), poll_line, List.forall_mem_nil _⟩
/-- The FEED schedule at the smallest block. -/
theorem test_witness_block :
    Inv (started one 0 0 []) ∧ (started one 0 0 []).ready = true ∧ (started one 0 0 []).cnt = 0
      ∧ [(1023 : Word16)].length = one.blockSize ∧ ∀ raw ∈ [(1023 : Word16)], raw.toNat < 2 ^ one.sampleW :=
  ⟨started_inv (by decide), by decide, by decide, by decide, by simp [one, defaultConfig]⟩
/-- Inside a block with registers that are not zero: V10, the sample 653 consumed and one more accepted. -/
theorem test_witness_filtered :
    let s := { started t16 2 1 [(0, 653), (1, 512)] with d1 := Lanes.fill 141 }
    Inv s ∧ Filtered s ∧ s.ready = true ∧ (nextState? (exec .poll s)).isSome = true :=
  ⟨⟨by decide, by decide, by decide, by decide, fun _ => by decide, fun _ => by decide, fun _ => by decide,
    fun _ => by decide⟩, fun _ => by decide, rfl, by decide⟩
/-- Before the POLL that completes a block. -/
theorem test_witness_filtered_block_end :
    let s := started one 1 0 [(0, 1023)]
    Inv s ∧ Filtered s ∧ s.ready = true ∧ s.idx < s.cnt ∧ s.idx + 1 = s.cfg.blockSize :=
  ⟨⟨by decide, by decide, by decide, by decide, fun _ => by decide, fun _ => by decide, fun _ => by decide,
    fun _ => by decide⟩, fun _ => by decide, by decide, by decide, by decide⟩
/-- A step that changes LATCH and responds. -/
theorem test_witness_latch_step :
    (nextState? (step (State.reset.withFetchWord 8 0x22))).map (fun t => (t.latch, t.responses, t.consumer))
      = some (some .key5, [0x35], []) := by decide
/-- Two states before INIT that differ in what R35 leaves unspecified. -/
theorem test_witness_unspecified :
    let s := State.reset
    let t := { State.reset with thresh := 9, cnt := 3, latch := some .hash, buf := [(2, 77)] }
    s ≠ t ∧ s.ready = false ∧ t.ready = false ∧ s.cfg = t.cfg ∧ s.producer = t.producer ∧ s.consumer = t.consumer
      ∧ s.unitId = t.unitId ∧ s.turn = t.turn ∧ s.responses = t.responses ∧ configWf s.cfg = true
      ∧ (1 : Word16) ≠ 0 := by decide
/-- Two different states that agree: entry 0 is consumed, entry 9 dead. -/
theorem test_witness_agree :
    Agree (started t16 2 1 [(0, 5), (1, 6)]) (started t16 2 1 [(0, 7), (1, 6), (9, 1)]) := by
  refine ⟨rfl, rfl, rfl, rfl, rfl, rfl, rfl, rfl, rfl, rfl, rfl, rfl, rfl, fun i h1 h2 => ?_⟩
  obtain rfl : i = 1 := Nat.le_antisymm (Nat.lt_succ_iff.1 h2) h1
  rfl
theorem test_witness_instances :
    let ms : Instances := Instances.reset [defaultConfig, t16]
    (∃ s, ms[1]? = some (.next s) ∧ s.unitId = 1) ∧ (0 : Nat) ≠ 1 ∧ [defaultConfig, t16][1]? = some t16
      ∧ ∃ t, step State.reset = .next t := ⟨⟨_, rfl, rfl⟩, by decide, rfl, _, rfl⟩
theorem test_witness_arithmetic :
    (1 ≤ 10 ∧ 10 ≤ 16 ∧ (1023 : Word16).toNat < 2 ^ 10)
      ∧ (2 : Int) ^ 31 ≤ energy (0x8000 : Word16).toInt (0x8000 : Word16).toInt (0 : Word16).toInt
      ∧ energy (0x8000 : Word16).toInt (0x8000 : Word16).toInt (0 : Word16).toInt < (2 : Int) ^ 32
      ∧ energy (32767 : Word16).toInt (32767 : Word16).toInt (0 : Word16).toInt < (2 : Int) ^ 31 := by decide
theorem test_witness_narrowing : (32768 : Int) > 32767 ∧ (-32769 : Int) < -32768 ∧ narrow16 .wrap 32768 = -32768
    ∧ narrow16 .wrap 32767 = 32767 := by decide
theorem test_witness_threshold_ceiling :
    let s := { started defaultConfig 0 0 [] with thresh := 32767 }
    s.cfg.accW = 32 ∧ s.cfg.finalShift = 16 ∧ 32767 ≤ s.thresh.toNat
      ∧ ∃ t, exec .poll s = .next t := ⟨rfl, rfl, by decide, _, rfl⟩
theorem test_witness_dtab : configWf defaultConfig = true ∧ (0x22, .key5) ∈ defaultConfig.dtab
    ∧ ∀ d ∈ allSymbols, (0x23, d) ∉ defaultConfig.dtab := by decide
theorem test_witness_debounce : Symbol.key5 ≠ Symbol.star := by decide

end Sys2Proof.Tests
end

/-! # READY, CNT and IDX: the family of 10_state.md -/

namespace Sys2Proof.Machine

variable {s t : State}

/-! ### What a step and a POLL can do, and what their parts leave of READY, CNT and IDX -/

/-- A step that answers a next state holds the state, or runs one instruction on the state without its request. -/
theorem step_next_cases (h : step s = .next t) :
    t = s ∨ ∃ i ps cs n, exec i (s.setRequests ps cs n) = .next t := by
  rcases step_eq s with ⟨-, -, hidle⟩ | ⟨a, w, u, hreq, hserve⟩
  · exact .inl (by simpa [hidle] using h.symm)
  · obtain ⟨ps, cs, n, rfl, -⟩ := nextRequest_some hreq
    obtain ⟨i, -, -, hexec⟩ := serve_next.1 (hserve.symm.trans h)
    exact .inr ⟨i, ps, cs, n, hexec⟩

/-- The three outcomes of a POLL that completes: no sample, one inside a block, a block's last one (R158). -/
theorem exec_poll_next_cases (h : exec .poll s = .next t) :
    (¬ s.idx < s.cnt ∧ t = s.respond none) ∨
    (s.idx < s.cnt ∧ s.idx + 1 ≠ s.cfg.blockSize ∧
      ∃ raw, Memory.read s.buf s.idx = some raw ∧ t = (afterSample raw s).respond none) ∨
    (s.idx < s.cnt ∧ s.idx + 1 = s.cfg.blockSize ∧
      ∃ raw, Memory.read s.buf s.idx = some raw ∧
        t = concludeBlock (detectionCode (afterSample raw s))
          (((afterSample raw s).setDelays zeroLanes zeroLanes).setCounters 0 0)) := by
  obtain ⟨-, -, ⟨hidx, ht⟩ | ⟨hidx, u, c, hconsume, ht⟩⟩ := execPoll_next.1 h
  · exact .inl ⟨hidx, ht⟩
  · obtain ⟨raw, -, hread, ⟨hlast, rfl, rfl⟩ | ⟨hlast, rfl, rfl⟩⟩ := consume_ok.1 hconsume
    · exact .inr (.inl ⟨hidx, hlast, raw, hread, by simpa using ht⟩)
    · exact .inr (.inr ⟨hidx, hlast, raw, hread, by simpa using ht⟩)

@[simp] theorem concludeBlock_ready (code : Code) (s : State) : (concludeBlock code s).ready = s.ready := rfl

@[simp] theorem concludeBlock_cnt (code : Code) (s : State) : (concludeBlock code s).cnt = s.cnt := rfl

@[simp] theorem concludeBlock_idx (code : Code) (s : State) : (concludeBlock code s).idx = s.idx := rfl

@[simp] theorem filterSample_ready (raw : Word16) (s : State) : (filterSample raw s).ready = s.ready := rfl

@[simp] theorem startUp_ready (x : Word16) (s : State) : (startUp x s).ready = true := rfl

@[simp] theorem startUp_cnt (x : Word16) (s : State) : (startUp x s).cnt = 0 := rfl

@[simp] theorem startUp_idx (x : Word16) (s : State) : (startUp x s).idx = 0 := rfl

/-! ### READY (R30) -/

/-- While `READY = 0` an instruction that completes is NOP or INIT. -/
theorem exec_next_of_not_ready {i : Instr} (hr : s.ready = false) (h : exec i s = .next t) :
    (i = .nop ∧ t = s) ∨ ∃ x, i = .init x ∧ t = startUp x s := by
  obtain ⟨-, hcases⟩ := exec_next_cases h
  rcases hcases with hnop | ⟨x, hi, -, -, ht⟩ | hready
  · exact .inl hnop
  · exact .inr ⟨x, hi, ht⟩
  · simp [hr] at hready

/-- No instruction clears `READY`. -/
theorem exec_keeps_ready {i : Instr} (hr : s.ready = true) (h : exec i s = .next t) : t.ready = true := by
  obtain ⟨-, hcases⟩ := exec_next_cases h
  rcases hcases with ⟨-, rfl⟩ | ⟨x, -, -, -, rfl⟩ | ⟨-, raw, -, -, -, rfl⟩ | ⟨-, raw, -, -, -, rfl⟩
    | ⟨-, -, -, rfl⟩ | ⟨-, -, -, raw, -, -, -, rfl⟩ | ⟨-, -, -, raw, -, -, rfl⟩ | ⟨-, c, -, rfl⟩ <;> simp [hr]

/-- No step clears `READY`: serving a request does not touch it, and no instruction clears it. -/
theorem step_keeps_ready (hr : s.ready = true) (h : step s = .next t) : t.ready = true := by
  rcases step_next_cases h with rfl | ⟨i, ps, cs, n, hexec⟩
  · exact hr
  · exact exec_keeps_ready (by simpa using hr) hexec

/-- Settles O20: an instruction that completes before the first INIT is NOP or INIT, and no step clears `READY`. -/
theorem readyGatesAndStays : Obligations.ReadyGatesAndStays := by
  refine ⟨rfl, fun i s t hr h => ?_, fun _ _ => step_keeps_ready⟩
  rcases exec_next_of_not_ready hr h with ⟨hi, rfl⟩ | ⟨x, hi, rfl⟩
  · exact .inl ⟨hi, hr⟩
  · exact .inr ⟨x, hi, startUp_ready x s⟩

/-! ### CNT and IDX (R23) -/

/-- SUBMIT adds 1 to `CNT` alone, or drops the sample (R91). -/
theorem exec_submit_counters {raw : Word16} (h : exec (.submit raw) s = .next t) :
    (s.cnt < s.cfg.blockSize → t.cnt = s.cnt + 1 ∧ t.idx = s.idx) ∧ (¬ s.cnt < s.cfg.blockSize → t = s) := by
  obtain ⟨-, -, -, rfl⟩ := execSubmit_next.1 h
  constructor
  · intro hroom
    simp [ingest_room hroom]
  · exact ingest_full

/-- POLL without a sample responds `none` alone; with one it adds 1 to `IDX`, or at `BLOCK_SIZE` clears both. -/
theorem exec_poll_counters (h : exec .poll s = .next t) :
    (¬ s.idx < s.cnt → t = { s with responses := s.responses ++ [0x00] })
    ∧ (s.idx < s.cnt → s.idx + 1 ≠ s.cfg.blockSize → t.idx = s.idx + 1 ∧ t.cnt = s.cnt)
    ∧ (s.idx < s.cnt → s.idx + 1 = s.cfg.blockSize → t.idx = 0 ∧ t.cnt = 0) := by
  rcases exec_poll_next_cases h with ⟨hidx, rfl⟩ | ⟨hidx, hlast, raw, -, rfl⟩ | ⟨hidx, hlast, raw, -, rfl⟩
  · simp [hidx, State.respond, rspWord]
  · simp [hidx, hlast]
  · simp [hidx, hlast]

/-- Settles O22, one instruction at a time. -/
theorem sequencingPairMoves : Obligations.SequencingPairMoves := by
  intro i s t h
  refine ⟨?nop, ?init, ?submit, ?poll⟩
  case nop =>
    rintro rfl
    obtain ⟨-, rfl⟩ := execNop_next.1 h
    exact ⟨rfl, rfl⟩
  case init =>
    rintro x rfl
    obtain ⟨-, -, -, rfl⟩ := execInit_next.1 h
    exact ⟨startUp_cnt x s, startUp_idx x s⟩
  case submit =>
    rintro raw rfl
    exact exec_submit_counters h
  case poll =>
    rintro rfl
    exact exec_poll_counters h

end Sys2Proof.Machine

/-! # The response words and the pseudo-instructions: the family of 30_encoding.md -/

namespace Sys2Proof.Machine

variable {s t : State}

/-! ### The response an instruction adds (R75, R76) -/

@[simp] theorem startUp_responses (x : Word16) (s : State) : (startUp x s).responses = s.responses := rfl

@[simp] theorem concludeBlock_responses (code : Code) (s : State) :
    (concludeBlock code s).responses =
      s.responses ++ [rspWord (debounce s.latch (decodeDigit s.cfg code)).2] := rfl

/-- An instruction that completes adds no response, or the word of one event. -/
theorem exec_next_responses {i : Instr} (h : exec i s = .next t) :
    t.responses = s.responses ∨ ∃ ev, t.responses = s.responses ++ [rspWord ev] := by
  obtain ⟨-, hcases⟩ := exec_next_cases h
  rcases hcases with ⟨-, rfl⟩ | ⟨x, -, -, -, rfl⟩ | ⟨-, raw, -, -, -, rfl⟩ | ⟨-, raw, -, -, -, rfl⟩
    | ⟨-, -, -, rfl⟩ | ⟨-, -, -, raw, -, -, -, rfl⟩ | ⟨-, -, -, raw, -, -, rfl⟩ | ⟨-, c, -, rfl⟩
  · exact .inl rfl
  · exact .inl (startUp_responses x s)
  · exact .inl rfl
  · exact .inl rfl
  · exact .inr ⟨none, State.respond_responses s none⟩
  · exact .inr ⟨none, State.respond_responses (afterSample raw s) none⟩
  · exact .inr ⟨_, concludeBlock_responses _ _⟩
  · exact .inr ⟨_, concludeBlock_responses c s⟩

/-- The thirteen response words of R76: `none`, then the symbols' codes. -/
def responseWords : List Rsp :=
  [0x00#8, 0x30#8, 0x31#8, 0x32#8, 0x33#8, 0x34#8, 0x35#8, 0x36#8, 0x37#8, 0x38#8, 0x39#8, 0x2A#8, 0x23#8]

theorem rspWord_mem_responseWords (ev : Option Symbol) : rspWord ev ∈ responseWords := by
  cases ev with
  | none => decide
  | some d => cases d <;> decide

/-- Settles O5: the codes as tabled, and a completing instruction adds at most the word of one event, which is one of
them. -/
theorem responseWordsAreTheSymbolCodes : Obligations.ResponseWordsAreTheSymbolCodes := by
  refine ⟨rfl, rfl, rfl, rfl, rfl, rfl, rfl, rfl, rfl, rfl, rfl, rfl, rfl, fun i s t h => ?_⟩
  rcases exec_next_responses h with hnone | ⟨ev, hev⟩
  · exact .inl hnone
  · exact .inr ⟨rspWord ev, rspWord_mem_responseWords ev, hev⟩

/-! ### The pseudo-instructions, one operand at a time (R84) -/

@[simp] theorem feedv_nil : feedv [] = [] := rfl

@[simp] theorem feedv_cons (raw : Word16) (raws : List Word16) : feedv (raw :: raws) = feed raw ++ feedv raws :=
  List.flatMap_cons

@[simp] theorem submitv_nil : submitv [] = [] := rfl

@[simp] theorem submitv_cons (raw : Word16) (raws : List Word16) :
    submitv (raw :: raws) = (.producer, .submit raw) :: submitv raws :=
  List.map_cons

@[simp] theorem polln_zero : polln 0 = [] := rfl

@[simp] theorem polln_succ (n : Nat) : polln (n + 1) = (.consumer, .poll) :: polln n :=
  List.replicate_succ

/-- Settles O51: each pseudo-instruction's expansion for no operand and for one operand more. -/
theorem pseudoInstructionsExpand : Obligations.PseudoInstructionsExpand :=
  ⟨fun _ => rfl, ⟨feedv_nil, feedv_cons⟩, ⟨submitv_nil, submitv_cons⟩, polln_zero, polln_succ⟩

end Sys2Proof.Machine

/-! # SUBMIT, and POLL before the first INIT: the family of 40_sample_ingestion.md -/

namespace Sys2Proof.Machine

variable {s : State}

/-- The word of a SUBMIT: `op = 10` over the raw sample (R70, R73). -/
theorem encode_submit (raw : Word16) : encode (.submit raw) = .req (0x20000 + raw.setWidth 18) := by
  have hword : reqWord 0b10#2 raw = 0x20000 + raw.setWidth 18 := by
    have hfields := reqWord_toNat 0b10#2 raw
    bv_omega
  exact congrArg InstrWord.req hword

/-! ### Refusals (R94, R161, R174) -/

/-- Before the first INIT the guard refuses as NotReady, whatever it guards. -/
theorem whenReady_of_not_ready {k : Host.Outcome State Fault Refusal} (hc : configWf s.cfg = true)
    (hr : s.ready = false) : whenReady s k = .refused .notReady :=
  whenReady_refused.2 (.inr (.inl ⟨hc, hr, rfl⟩))

theorem exec_poll_of_not_ready (hc : configWf s.cfg = true) (hr : s.ready = false) :
    exec .poll s = .refused .notReady :=
  execPoll_refused.2 (.inr ⟨hc, hr, rfl⟩)

theorem exec_submit_of_not_ready (raw : Word16) (hc : configWf s.cfg = true) (hr : s.ready = false) :
    exec (.submit raw) s = .refused .notReady :=
  whenReady_of_not_ready hc hr

theorem exec_submit_of_reserved_bits {raw : Word16} (hc : configWf s.cfg = true) (hr : s.ready = true)
    (hbits : ¬ raw.toNat < 2 ^ s.cfg.sampleW) : exec (.submit raw) s = .refused .reservedBits := by
  have hfits : ¬ rawFits s.cfg.sampleW raw = true := mt (rawFits_iff _ _).1 hbits
  exact (whenReady_of hc hr).trans (if_neg hfits)

/-- Settles O21: the guard on `READY` stands before every other test of POLL and SUBMIT. -/
theorem notReadyIsRefused : Obligations.NotReadyIsRefused := fun _ hc hr =>
  ⟨exec_poll_of_not_ready hc hr, fun raw _ => exec_submit_of_not_ready raw hc hr,
    fun raw => ⟨.notReady, exec_submit_of_not_ready raw hc hr⟩⟩

/-! ### The append and the drop (R91) -/

/-- An admitted SUBMIT completes with what `ingest` makes of the state. -/
theorem exec_submit_of_legal {raw : Word16} (hc : configWf s.cfg = true) (hr : s.ready = true)
    (hraw : raw.toNat < 2 ^ s.cfg.sampleW) : exec (.submit raw) s = .next (ingest raw s) :=
  execSubmit_next.2 ⟨hc, hr, (rawFits_iff _ _).2 hraw, rfl⟩

/-- Settles O15: refused, appended at `CNT` or dropped, as `READY`, the reserved bits and the room decide. -/
theorem submitAppendsOrDrops : Obligations.SubmitAppendsOrDrops := by
  refine ⟨fun raw => ⟨encode_submit raw, rfl, rfl⟩, fun s raw hc =>
    ⟨?legalNotReady, ?notReady, ?reservedBits, ?room, ?full⟩⟩
  case legalNotReady => exact fun hr _ => exec_submit_of_not_ready raw hc hr
  case notReady => exact fun hr => ⟨.notReady, exec_submit_of_not_ready raw hc hr⟩
  case reservedBits => exact exec_submit_of_reserved_bits hc
  case room =>
    intro hr hraw hroom
    refine ⟨Memory.write s.buf s.cnt raw, ?_, Memory.read_write_same _ _ _,
      fun a ha => Memory.read_write_other _ _ ha.symm⟩
    rw [exec_submit_of_legal hc hr hraw, ingest_room hroom]
  case full =>
    intro hr hraw hfull
    rw [exec_submit_of_legal hc hr hraw, ingest_full hfull]

end Sys2Proof.Machine

/-! # The delay registers along a block: the family of 41_filter_bank.md -/

namespace Sys2Proof.Safety

open Sys2Proof.Machine

variable {s : State} {ls : List Line} {raw : Word16} {d1 d2 : Lanes Word16} {m : Memory} {B w : Nat}

/-! ### What one more line of a schedule accepts and consumes -/

theorem countLine_poll (p : Nat × Nat) :
    countLine B p (.consumer, .poll) = if p.2 < p.1 then (p.1, p.2 + 1) else p := rfl

theorem countLine_submit (p : Nat × Nat) :
    countLine B p (.producer, .submit raw) = if p.1 < B then (p.1 + 1, p.2) else p := by
  simp [countLine]

theorem sampleCounts_poll_of_waiting (hwaiting : (sampleCounts B ls).2 < (sampleCounts B ls).1) :
    sampleCounts B (ls ++ [(.consumer, .poll)]) = ((sampleCounts B ls).1, (sampleCounts B ls).2 + 1) := by
  rw [sampleCounts_concat, countLine_poll, if_pos hwaiting]

theorem sampleCounts_poll_of_idle (hidle : ¬ (sampleCounts B ls).2 < (sampleCounts B ls).1) :
    sampleCounts B (ls ++ [(.consumer, .poll)]) = sampleCounts B ls := by
  rw [sampleCounts_concat, countLine_poll, if_neg hidle]

theorem sampleCounts_submit_of_room (hroom : (sampleCounts B ls).1 < B) :
    sampleCounts B (ls ++ [(.producer, .submit raw)]) = ((sampleCounts B ls).1 + 1, (sampleCounts B ls).2) := by
  rw [sampleCounts_concat, countLine_submit, if_pos hroom]

theorem sampleCounts_submit_of_full (hfull : ¬ (sampleCounts B ls).1 < B) :
    sampleCounts B (ls ++ [(.producer, .submit raw)]) = sampleCounts B ls := by
  rw [sampleCounts_concat, countLine_submit, if_neg hfull]

/-- The samples accepted are those submitted, up to `BLOCK_SIZE` (R91). -/
theorem sampleCounts_accepted (hls : ∀ l ∈ ls, SampleLine w l) :
    (sampleCounts B ls).1 = min (submitted ls).length B := by
  induction ls using List.reverseRecOn with
  | nil => simp
  | append_singleton ls l ih =>
    obtain ⟨hfirst, hlast⟩ := List.forall_mem_append.1 hls
    have haccepted := ih hfirst
    rw [sampleCounts_concat]
    rcases hlast l List.mem_cons_self with rfl | ⟨raw, -, rfl⟩
    · rw [countLine_poll, submitted_poll, ← haccepted]
      split <;> rfl
    · rw [countLine_submit, submitted_submit, List.length_append, List.length_singleton]
      split <;> omega

/-- Every sample accepted, so every sample consumed, has been submitted. -/
theorem sampleCounts_le_submitted (hls : ∀ l ∈ ls, SampleLine w l) :
    (sampleCounts B ls).1 ≤ (submitted ls).length :=
  (sampleCounts_accepted hls).trans_le (min_le_left _ _)

/-! ### POLL inside a block (R158) -/

/-- A POLL without a sample completes with the response `none` alone. -/
theorem exec_poll_of_idle (hc : configWf s.cfg = true) (hr : s.ready = true) (hidle : ¬ s.idx < s.cnt) :
    exec .poll s = .next (s.respond none) :=
  execPoll_next.2 ⟨hc, hr, .inl ⟨hidle, rfl⟩⟩

/-- A POLL with a sample that is not the block's last completes with that sample consumed and the response `none`. -/
theorem exec_poll_of_sample (hc : configWf s.cfg = true) (hr : s.ready = true) (havail : s.idx < s.cnt)
    (hinside : s.idx + 1 < s.cfg.blockSize) (hread : Memory.read s.buf s.idx = some raw) :
    exec .poll s = .next ((afterSample raw s).respond none) :=
  have hconsume : consume s = .ok (afterSample raw s, none) :=
    consume_ok.2 ⟨raw, by omega, hread, .inl ⟨hinside.ne, rfl, rfl⟩⟩
  execPoll_next.2 ⟨hc, hr, .inr ⟨havail, _, none, hconsume, .inl ⟨rfl, rfl⟩⟩⟩

/-! ### The state inside a block, and the invariant of a schedule that does not complete it -/

/-- The state that the schedule `ls` of an uncompleted block leaves of the empty block `s`, with the delay registers
`d1`, `d2` and the buffer `m`. -/
def insideBlock (s : State) (ls : List Line) (d1 d2 : Lanes Word16) (m : Memory) : State :=
  { s with
    d1 := d1
    d2 := d2
    buf := m
    cnt := (sampleCounts s.cfg.blockSize ls).1
    idx := (sampleCounts s.cfg.blockSize ls).2
    responses := s.responses ++ List.replicate (pollCount ls) 0x00 }

theorem ingest_insideBlock_of_room (hroom : (sampleCounts s.cfg.blockSize ls).1 < s.cfg.blockSize) :
    ingest raw (insideBlock s ls d1 d2 m) =
      insideBlock s (ls ++ [(.producer, .submit raw)]) d1 d2
        (Memory.write m (sampleCounts s.cfg.blockSize ls).1 raw) := by
  rw [ingest_room hroom]
  simp [insideBlock, sampleCounts_submit_of_room hroom]

theorem ingest_insideBlock_of_full (hfull : ¬ (sampleCounts s.cfg.blockSize ls).1 < s.cfg.blockSize) :
    ingest raw (insideBlock s ls d1 d2 m) = insideBlock s (ls ++ [(.producer, .submit raw)]) d1 d2 m := by
  rw [ingest_full hfull]
  simp [insideBlock, sampleCounts_submit_of_full hfull]

theorem respond_insideBlock_of_idle
    (hidle : ¬ (sampleCounts s.cfg.blockSize ls).2 < (sampleCounts s.cfg.blockSize ls).1) :
    (insideBlock s ls d1 d2 m).respond none = insideBlock s (ls ++ [(.consumer, .poll)]) d1 d2 m := by
  simp [insideBlock, sampleCounts_poll_of_idle hidle, State.respond, rspWord, List.replicate_succ']

theorem respond_afterSample_insideBlock
    (hwaiting : (sampleCounts s.cfg.blockSize ls).2 < (sampleCounts s.cfg.blockSize ls).1) :
    (afterSample raw (insideBlock s ls d1 d2 m)).respond none =
      insideBlock s (ls ++ [(.consumer, .poll)]) (filterSample raw (insideBlock s ls d1 d2 m)).d1 d1 m := by
  simp [insideBlock, sampleCounts_poll_of_waiting hwaiting, filterSample, State.setDelays, State.setCounters,
    State.respond, rspWord, List.replicate_succ']

/-- The buffer holds the samples accepted in the order submitted, and the delay registers are the recurrence of R108
over those consumed. -/
structure FollowsSchedule (s : State) (ls : List Line) (d1 d2 : Lanes Word16) (m : Memory) : Prop where
  entries : ∀ j < (sampleCounts s.cfg.blockSize ls).1, Memory.read m j = (submitted ls)[j]?
  delays : ∀ k : Fin 7, ((d1.get k).toInt, (d2.get k).toInt) =
    goertzel s.cfg.ovfMode (s.cfg.coeff.get k).toInt
      (centeredAll s.cfg ((submitted ls).take (sampleCounts s.cfg.blockSize ls).2))

theorem idx_of_empty (hi : Inv s) (hr : s.ready = true) (hcnt : s.cnt = 0) : s.idx = 0 :=
  Nat.le_zero.1 (hcnt ▸ (hi.counters hr).1)

theorem insideBlock_nil (hi : Inv s) (hr : s.ready = true) (hcnt : s.cnt = 0) :
    insideBlock s [] s.d1 s.d2 s.buf = s := by
  have hidx := idx_of_empty hi hr hcnt
  cases s
  simp_all [insideBlock]

theorem followsSchedule_nil (hi : Inv s) (hr : s.ready = true) (hcnt : s.cnt = 0) :
    FollowsSchedule s [] s.d1 s.d2 s.buf where
  entries := by simp
  delays k := by
    obtain ⟨hd1, hd2⟩ := hi.fresh hr (idx_of_empty hi hr hcnt)
    simp [hd1, hd2, zeroLanes, centeredAll, goertzel]

/-- A legal SUBMIT keeps the invariant of the schedule: the sample is appended, or dropped for lack of room. -/
theorem FollowsSchedule.submit (h : FollowsSchedule s ls d1 d2 m) (hls : ∀ l ∈ ls, SampleLine w l) :
    ∃ m', ingest raw (insideBlock s ls d1 d2 m) = insideBlock s (ls ++ [(.producer, .submit raw)]) d1 d2 m'
      ∧ FollowsSchedule s (ls ++ [(.producer, .submit raw)]) d1 d2 m' := by
  have haccepted := sampleCounts_accepted (B := s.cfg.blockSize) hls
  have hconsumed := (sampleCounts_le ls s.cfg.blockSize).1
  have hdelays : ∀ k : Fin 7, ((d1.get k).toInt, (d2.get k).toInt) =
      goertzel s.cfg.ovfMode (s.cfg.coeff.get k).toInt
        (centeredAll s.cfg ((submitted ls ++ [raw]).take (sampleCounts s.cfg.blockSize ls).2)) := by
    rw [List.take_append_of_le_length (by omega)]
    exact h.delays
  have hentries : ∀ j < (sampleCounts s.cfg.blockSize ls).1,
      Memory.read m j = (submitted ls ++ [raw])[j]? := fun j hj => by
    rw [List.getElem?_append_left (by omega), h.entries j hj]
  by_cases hroom : (sampleCounts s.cfg.blockSize ls).1 < s.cfg.blockSize
  · have hcounts := sampleCounts_submit_of_room (raw := raw) hroom
    refine ⟨Memory.write m (sampleCounts s.cfg.blockSize ls).1 raw, ?_, fun j hj => ?_, ?_⟩
    · exact ingest_insideBlock_of_room hroom
    · rw [hcounts] at hj
      rw [submitted_submit, Memory.read_write]
      split
      · next hlast => simp [← hlast, show (sampleCounts s.cfg.blockSize ls).1 = (submitted ls).length by omega]
      · next hother => exact hentries j (by omega)
    · rwa [hcounts, submitted_submit]
  · have hcounts := sampleCounts_submit_of_full (raw := raw) hroom
    refine ⟨m, ?_, ?_, ?_⟩
    · exact ingest_insideBlock_of_full hroom
    · rwa [hcounts, submitted_submit]
    · rwa [hcounts, submitted_submit]

/-- A POLL that does not complete the block keeps the invariant of the schedule: it finds no sample, or one sample goes
through the bank. -/
theorem FollowsSchedule.poll (h : FollowsSchedule s ls d1 d2 m) (hls : ∀ l ∈ ls, SampleLine w l)
    (hc : configWf s.cfg = true) (hr : s.ready = true)
    (hinside : (sampleCounts s.cfg.blockSize (ls ++ [(.consumer, .poll)])).2 < s.cfg.blockSize) :
    ∃ d1' d2', exec .poll (insideBlock s ls d1 d2 m) =
        .next (insideBlock s (ls ++ [(.consumer, .poll)]) d1' d2' m)
      ∧ FollowsSchedule s (ls ++ [(.consumer, .poll)]) d1' d2' m := by
  obtain ⟨hentries, hdelays⟩ := h
  by_cases hwaiting : (sampleCounts s.cfg.blockSize ls).2 < (sampleCounts s.cfg.blockSize ls).1
  · have hcounts := sampleCounts_poll_of_waiting hwaiting
    rw [hcounts] at hinside
    have hlt := hwaiting.trans_le (sampleCounts_le_submitted hls)
    have hread := (hentries _ hwaiting).trans (List.getElem?_eq_getElem hlt)
    have hpoll := exec_poll_of_sample (s := insideBlock s ls d1 d2 m) hc hr hwaiting hinside hread
    rw [respond_afterSample_insideBlock hwaiting] at hpoll
    refine ⟨_, d1, hpoll, ?_, fun k => ?_⟩
    · rwa [hcounts, submitted_poll]
    · rw [hcounts, submitted_poll, ← List.take_concat_get' _ _ hlt]
      exact filterSample_follows (s := insideBlock s ls d1 d2 m) (hdelays k)
  · have hcounts := sampleCounts_poll_of_idle hwaiting
    have hpoll := exec_poll_of_idle (s := insideBlock s ls d1 d2 m) hc hr hwaiting
    rw [respond_insideBlock_of_idle hwaiting] at hpoll
    refine ⟨d1, d2, hpoll, ?_, ?_⟩
    · rwa [hcounts, submitted_poll]
    · rwa [hcounts, submitted_poll]

/-- A schedule of an empty block whose POLLs do not complete it runs through, by induction on its last line. -/
theorem runListing_insideBlock (hi : Inv s) (hr : s.ready = true) (hcnt : s.cnt = 0)
    (hls : ∀ l ∈ ls, SampleLine s.cfg.sampleW l) (hlt : (sampleCounts s.cfg.blockSize ls).2 < s.cfg.blockSize) :
    ∃ d1 d2 m, runListing ls s = .next (insideBlock s ls d1 d2 m) ∧ FollowsSchedule s ls d1 d2 m := by
  induction ls using List.reverseRecOn with
  | nil =>
    refine ⟨s.d1, s.d2, s.buf, ?_, followsSchedule_nil hi hr hcnt⟩
    rw [insideBlock_nil hi hr hcnt, runListing]
  | append_singleton ls l ih =>
    obtain ⟨hfirst, hlast⟩ := List.forall_mem_append.1 hls
    obtain ⟨d1, d2, m, hrun, hfollows⟩ := ih hfirst ((sampleCounts_mono ls l _).trans_lt hlt)
    rw [runListing_append hrun]
    rcases hlast l List.mem_cons_self with rfl | ⟨raw, hraw, rfl⟩
    · obtain ⟨d1', d2', hpoll, hfollows'⟩ := hfollows.poll hfirst hi.config hr hlt
      exact ⟨d1', d2', m, runListing_cons _ [] _ hpoll, hfollows'⟩
    · obtain ⟨m', hingest, hfollows'⟩ := hfollows.submit (raw := raw) hfirst
      have hsubmit := (exec_submit_of_legal (s := insideBlock s ls d1 d2 m) hi.config hr hraw).trans
        (congrArg _ hingest)
      exact ⟨d1, d2, m', runListing_cons _ [] _ hsubmit, hfollows'⟩

/-- Settles O36: the state the schedule leaves has the counts, the responses and the delay registers said. -/
theorem delayRegistersFollowTheRecurrence : Obligations.DelayRegistersFollowTheRecurrence := by
  intro s ls hi hr hcnt hls hlt
  obtain ⟨d1, d2, m, hrun, hfollows⟩ := runListing_insideBlock hi hr hcnt hls hlt
  exact ⟨_, hrun, rfl, rfl, hfollows.delays⟩

end Sys2Proof.Safety

/-! # The Block Finalizer: the family of 42_block_finalizer.md -/

namespace Sys2Proof.Machine

variable {n : Nat} {v w : Int}

/-! ### Wrapping (R12, R122) -/

/-- A value in the signed range of `n` bits is kept. -/
theorem wrapS_eq_self (hn : 1 ≤ n) (hlow : -(2 : Int) ^ (n - 1) ≤ v) (hhigh : v < (2 : Int) ^ (n - 1)) :
    wrapS n v = v := by
  have hpow : (2 : Int) ^ n = 2 ^ (n - 1) + 2 ^ (n - 1) := by
    rw [← two_mul, ← pow_succ', Nat.sub_add_cancel hn]
  rw [wrapS, Int.emod_eq_of_lt (by linarith) (by linarith), add_sub_cancel_right]

/-- In 32 bits a value from `2^31` to `2^32` comes out `2^32` lower. -/
theorem wrapS_32_eq_sub (hlow : (2 : Int) ^ 31 ≤ v) (hhigh : v ≤ (2 : Int) ^ 32) :
    wrapS 32 v = v - (2 : Int) ^ 32 := by
  norm_num [wrapS] at *
  omega

theorem wrapS_eq_of_modEq (h : v ≡ w [ZMOD (2 : Int) ^ n]) : wrapS n v = wrapS n w :=
  congrArg (· - (2 : Int) ^ (n - 1)) (h.add_right _)

/-- Wrapping a partial sum changes nothing of the wrapped difference. -/
theorem wrapS_wrapS_sub (n : Nat) (v c : Int) : wrapS n (wrapS n v - c) = wrapS n (v - c) :=
  wrapS_eq_of_modEq (Int.ModEq.sub_right c (wrapS_congr n v))

theorem asr_nonpos (h : v ≤ 0) (k : Nat) : asr v k ≤ 0 :=
  Int.ediv_nonpos_of_nonpos_of_neg h (by positivity)

/-! ### The feedback term and the products (R102, R122) -/

variable (d1 d2 c : Word16)

theorem abs_toInt_le : |d1.toInt| ≤ 32768 := by
  obtain ⟨hlow, hhigh⟩ := regInt_bounds d1
  exact abs_le.2 ⟨hlow, by linarith [show d1.toInt ≤ 32767 from hhigh]⟩

theorem toInt_mul_self_le : d1.toInt * d1.toInt ≤ (2 : Int) ^ 30 := by
  have habs := abs_toInt_le d1
  calc d1.toInt * d1.toInt = |d1.toInt| * |d1.toInt| := (abs_mul_abs_self _).symm
    _ ≤ 32768 * 32768 := mul_le_mul habs habs (abs_nonneg _) (by norm_num)
    _ = (2 : Int) ^ 30 := by norm_num

/-- `|fb| <= 2|D1|`, because a coefficient is at most 2 in magnitude after the shift. -/
theorem abs_feedback_le : |feedback d1.toInt c.toInt| ≤ 2 * |d1.toInt| := by
  have hprod : |d1.toInt * c.toInt| ≤ |d1.toInt| * 32768 := by
    rw [abs_mul]
    exact mul_le_mul_of_nonneg_left (abs_toInt_le c) (abs_nonneg _)
  rw [abs_le] at hprod ⊢
  norm_num [feedback, asr, scale]
  omega

/-- The lower bound is not `-65536`: the least product is `-32768 * 32767`. -/
theorem feedback_bounds :
    -65534 ≤ feedback d1.toInt c.toInt ∧ feedback d1.toInt c.toInt ≤ 65536 := by
  obtain ⟨hd, hd'⟩ : -32768 ≤ d1.toInt ∧ d1.toInt ≤ 32767 := regInt_bounds d1
  obtain ⟨hc, hc'⟩ : -32768 ≤ c.toInt ∧ c.toInt ≤ 32767 := regInt_bounds c
  have hlow : -32768 * 32767 ≤ d1.toInt * c.toInt := by nlinarith
  have hhigh : d1.toInt * c.toInt ≤ 32768 * 32768 := by nlinarith
  norm_num [feedback, asr, scale]
  omega

/-- Below the extreme `D2` the product `fb*D2` stays clear of `2^31`. -/
theorem abs_feedback_mul_lt (h : d2.toInt ≠ -32768) :
    |feedback d1.toInt c.toInt * d2.toInt| < (2 : Int) ^ 31 := by
  obtain ⟨hd, hd'⟩ : -32768 ≤ d2.toInt ∧ d2.toInt ≤ 32767 := regInt_bounds d2
  obtain ⟨hfb, hfb'⟩ := feedback_bounds d1 c
  calc |feedback d1.toInt c.toInt * d2.toInt|
      = |feedback d1.toInt c.toInt| * |d2.toInt| := abs_mul _ _
    _ ≤ 65536 * 32767 :=
      mul_le_mul (abs_le.2 ⟨by omega, hfb'⟩) (abs_le.2 ⟨by omega, hd'⟩) (abs_nonneg _) (by norm_num)
    _ < (2 : Int) ^ 31 := by norm_num

theorem feedback_mul_bounds :
    -(2 : Int) ^ 31 ≤ feedback d1.toInt c.toInt * d2.toInt
      ∧ feedback d1.toInt c.toInt * d2.toInt < (2 : Int) ^ 31 := by
  obtain ⟨hlow, hhigh⟩ := feedback_bounds d1 c
  by_cases h : d2.toInt = -32768
  · rw [h]
    constructor <;> linarith
  · obtain ⟨hneg, hpos⟩ := abs_lt.1 (abs_feedback_mul_lt d1 d2 c h)
    exact ⟨hneg.le, hpos⟩

/-- `fb*D2` meets `-2^31` at one pair of operands alone. -/
theorem feedback_mul_eq_min_iff :
    feedback d1.toInt c.toInt * d2.toInt = -(2 : Int) ^ 31 ↔
      feedback d1.toInt c.toInt = 65536 ∧ d2.toInt = -32768 := by
  by_cases h : d2.toInt = -32768
  · rw [h]
    omega
  · refine iff_of_false (fun heq => ?_) fun hand => h hand.2
    exact (abs_lt.1 (abs_feedback_mul_lt d1 d2 c h)).1.ne' heq

/-- `|fb*D2| <= 2|D1||D2| <= D1^2 + D2^2`. -/
theorem abs_feedback_mul_le :
    |feedback d1.toInt c.toInt * d2.toInt| ≤ d1.toInt * d1.toInt + d2.toInt * d2.toInt :=
  calc |feedback d1.toInt c.toInt * d2.toInt|
      = |feedback d1.toInt c.toInt| * |d2.toInt| := abs_mul _ _
    _ ≤ 2 * |d1.toInt| * |d2.toInt| := mul_le_mul_of_nonneg_right (abs_feedback_le d1 c) (abs_nonneg _)
    _ ≤ |d1.toInt| ^ 2 + |d2.toInt| ^ 2 := two_mul_le_add_sq _ _
    _ = d1.toInt * d1.toInt + d2.toInt * d2.toInt := by rw [sq_abs, sq_abs, sq, sq]

/-! ### The accumulated value (R122) -/

theorem energy_bounds :
    0 ≤ energy d1.toInt d2.toInt c.toInt ∧ energy d1.toInt d2.toInt c.toInt ≤ (2 : Int) ^ 32 := by
  obtain ⟨hlow, hhigh⟩ := abs_le.1 (abs_feedback_mul_le d1 d2 c)
  have h1 := toInt_mul_self_le d1
  have h2 := toInt_mul_self_le d2
  unfold energy
  constructor <;> linarith

/-- From `2^31` up a 32-bit accumulator holds `e - 2^32`, which is 0 at most, so no magnitude of it is positive. -/
theorem asr_wrapS_32_energy_nonpos (h : (2 : Int) ^ 31 ≤ energy d1.toInt d2.toInt c.toInt) (k : Nat) :
    asr (wrapS 32 (energy d1.toInt d2.toInt c.toInt)) k ≤ 0 := by
  have hmax := (energy_bounds d1 d2 c).2
  rw [wrapS_32_eq_sub h hmax]
  exact asr_nonpos (by linarith) k

/-- 34 bits hold every accumulated value. -/
theorem wrapS_energy_of_wide (hn : 34 ≤ n) :
    wrapS n (energy d1.toInt d2.toInt c.toInt) = energy d1.toInt d2.toInt c.toInt := by
  obtain ⟨hmin, hmax⟩ := energy_bounds d1 d2 c
  have hpow : (2 : Int) ^ 33 ≤ 2 ^ (n - 1) := pow_le_pow_right₀ (by norm_num) (by omega)
  exact wrapS_eq_self (by omega) (by linarith) (by linarith)

/-- Settles O46: the ranges of the products and of `e`, then what each width of the accumulator makes of `e`. -/
theorem accumulatorRange : Obligations.AccumulatorRange := by
  refine ⟨fun d1 d2 c => ?_, by decide, by norm_num, by decide, by decide,
    fun n a b c _ => wrapS_wrapS_sub n (a + b) c⟩
  obtain ⟨hmin, hmax⟩ := energy_bounds d1 d2 c
  refine ⟨⟨mul_self_nonneg _, (toInt_mul_self_le d1).trans_lt (by norm_num)⟩,
    ⟨mul_self_nonneg _, (toInt_mul_self_le d2).trans_lt (by norm_num)⟩, feedback_mul_bounds d1 d2 c,
    feedback_mul_eq_min_iff d1 d2 c, abs_feedback_le d1 c, abs_feedback_mul_le d1 d2 c, hmin, hmax,
    ?negative, ?kept, asr_wrapS_32_energy_nonpos d1 d2 c, fun n => wrapS_energy_of_wide d1 d2 c⟩
  case negative =>
    intro hlow hhigh
    rw [wrapS_32_eq_sub hlow hhigh.le]
    linarith
  case kept =>
    exact wrapS_eq_self (n := 32) (by norm_num) (hmin.trans' (by norm_num))

end Sys2Proof.Machine

namespace Sys2Proof.Safety

open Sys2Proof.Machine

variable {s : State} {raw : Word16} {raws : List Word16} {n : Nat}

/-! ### The POLL that completes a block (R110, R158) -/

/-- The state `s` after the POLL of a block's last sample whose decoded digit is `dg`: the block at its start, the digit
in `LATCH`, and the digit as response unless `LATCH` held it. -/
def blockReported (dg : Option Symbol) (s : State) : State :=
  { s with
    d1 := zeroLanes
    d2 := zeroLanes
    cnt := 0
    idx := 0
    latch := dg
    responses := s.responses ++ [if dg = s.latch then 0x00 else rspWord dg] }

theorem concludeBlock_completed (code : Code) (raw : Word16) (s : State) :
    concludeBlock code (((afterSample raw s).setDelays zeroLanes zeroLanes).setCounters 0 0) =
      blockReported (decodeDigit s.cfg code) s := by
  rw [concludeBlock_eq, rspWord_debounce]
  rfl

/-- A POLL with a block's last sample completes and reports the Detection Code of the registers that sample leaves. -/
theorem exec_poll_of_last_sample (hc : configWf s.cfg = true) (hr : s.ready = true) (havail : s.idx < s.cnt)
    (hlast : s.idx + 1 = s.cfg.blockSize) (hread : Memory.read s.buf s.idx = some raw) :
    exec .poll s = .next (blockReported (decodeDigit s.cfg (detectionCode (afterSample raw s))) s) :=
  have hconsume := consume_ok.2 ⟨raw, by omega, hread, .inr ⟨hlast, rfl, rfl⟩⟩
  execPoll_next.2 ⟨hc, hr, .inr ⟨havail, _, _, hconsume, .inr ⟨_, rfl, (concludeBlock_completed _ raw s).symm⟩⟩⟩

/-! ### The Detection Code, bit by bit and of a whole block (R122 to R126) -/

theorem magnitude_eq (c : Config) (d1 d2 coeff : Word16) :
    magnitude c d1 d2 coeff =
      asr (wrapS c.accW (d1.toInt * d1.toInt + d2.toInt * d2.toInt - asr (coeff.toInt * d1.toInt) 14 * d2.toInt))
        c.finalShift := by
  rw [mul_comm coeff.toInt]
  rfl

theorem detectionCode_bit (s : State) (k : Fin 7) :
    (detectionCode s).getLsbD k =
      decide (magnitude s.cfg (s.d1.get k) (s.d2.get k) (s.cfg.coeff.get k) > (s.thresh.toNat : Int)) := by
  rw [detectionCode, packCode_bit, Lanes.get_ofFn, magnitudes, Lanes.get_ofFn]
  rfl

/-- The new `D1[k]` is the narrowed output of the old registers (R105, R107). -/
theorem afterSample_d1_toInt (raw : Word16) (s : State) (k : Fin 7) :
    ((afterSample raw s).d1.get k).toInt =
      narrow16 s.cfg.ovfMode (((raw.toNat : Int) - 2 ^ (s.cfg.sampleW - 1))
        + asr ((s.cfg.coeff.get k).toInt * (s.d1.get k).toInt) 14 - (s.d2.get k).toInt) := by
  rw [mul_comm (s.cfg.coeff.get k).toInt]
  simp only [afterSample, filterSample, State.setCounters_d1, State.setDelays_d1, Lanes.get_ofFn]
  exact regInt_regWord_narrow16 _ _

/-- Settles O18: the code is that of the registers the last sample leaves. -/
theorem pollCompletesABlock : Obligations.PollCompletesABlock := by
  intro s raw hc hr havail hlast hread
  refine ⟨detectionCode (afterSample raw s), fun k => ?_, exec_poll_of_last_sample hc hr havail hlast hread⟩
  rw [detectionCode_bit, magnitude_eq, afterSample_d1_toInt]
  rfl

/-- A packed code is the sum of the weights of its set bits (R126). -/
theorem packCode_ofFn (b : Fin 7 → Bool) :
    packCode (Lanes.ofFn b) =
      BitVec.ofNat 7 ((List.finRange 7).map fun k => if b k = true then 2 ^ k.val else 0).sum := by
  simp [packCode, Lanes.ofFn, List.finRange_succ, Bool.toNat, Bool.cond_eq_ite, add_assoc]

/-- Delay registers that follow the recurrence over a block of samples give that block's Detection Code (R124). -/
theorem detectionCode_eq_blockCode
    (h : ∀ k : Fin 7, ((s.d1.get k).toInt, (s.d2.get k).toInt) =
      goertzel s.cfg.ovfMode (s.cfg.coeff.get k).toInt (centeredAll s.cfg raws)) :
    detectionCode s = blockCode s.cfg s.thresh raws := by
  have hmagnitude : ∀ k : Fin 7, magnitude s.cfg (s.d1.get k) (s.d2.get k) (s.cfg.coeff.get k) =
      blockMagnitude s.cfg (s.cfg.coeff.get k) raws := fun k => by
    rw [magnitude_eq, blockMagnitude, ← h k]
  simp [detectionCode, blockCode, packCode_ofFn, magnitudes, exceeds, hmagnitude]

/-- Where the registers follow the recurrence over the samples before it, the POLL of a block's last sample reports the
digit of the block. -/
theorem exec_poll_reports_block (hc : configWf s.cfg = true) (hr : s.ready = true) (havail : s.idx < s.cnt)
    (hlast : s.idx + 1 = s.cfg.blockSize) (hread : Memory.read s.buf s.idx = some raw)
    (hdelays : ∀ k : Fin 7, ((s.d1.get k).toInt, (s.d2.get k).toInt) =
      goertzel s.cfg.ovfMode (s.cfg.coeff.get k).toInt (centeredAll s.cfg raws)) :
    exec .poll s = .next (blockReported (decodeDigit s.cfg (blockCode s.cfg s.thresh (raws ++ [raw]))) s) := by
  have hcode : detectionCode (afterSample raw s) = blockCode s.cfg s.thresh (raws ++ [raw]) :=
    detectionCode_eq_blockCode (s := afterSample raw s) (raws := raws ++ [raw])
      fun k => filterSample_follows (s := s) (hdelays k)
  rw [exec_poll_of_last_sample hc hr havail hlast hread, hcode]

/-! ### The block in the buffer, and the block under a schedule (R124) -/

theorem length_firstEntries (h : ∀ i < n, (Memory.read s.buf i).isSome = true) : (firstEntries s n).length = n := by
  induction n with
  | zero => rfl
  | succ n ih =>
    obtain ⟨raw, hread⟩ := Option.isSome_iff_exists.1 (h n n.lt_succ_self)
    rw [firstEntries_succ hread, List.length_append, ih fun i hi => h i (Nat.lt_succ_of_lt hi), List.length_singleton]

/-- Settles O32: the buffer holds the block, and the filter's invariant makes its code that of those samples. -/
theorem aCompletingPollReportsTheBufferedBlock : Obligations.ACompletingPollReportsTheBufferedBlock := by
  intro s hi hf hr havail hlast
  have haccepted := hi.accepted hr
  obtain ⟨raw, hread⟩ := Option.isSome_iff_exists.1 (haccepted s.idx havail)
  have hpoll := exec_poll_reports_block hi.config hr havail hlast hread (hf hr)
  rw [← firstEntries_succ hread, hlast] at hpoll
  exact ⟨length_firstEntries fun i hlt => haccepted i (by omega), hpoll⟩

/-- Settles O37: the schedule leaves the block one POLL short of its end, with the samples submitted in the buffer and
the registers on the recurrence over them. -/
theorem aBlockReportsItsDigit : Obligations.ABlockReportsItsDigit := by
  intro s ls hi hr hcnt hls hlast hwaiting
  have haccepted : (sampleCounts s.cfg.blockSize ls).1 = s.cfg.blockSize := by
    have := (sampleCounts_le ls s.cfg.blockSize).2
    omega
  have hsubmitted := sampleCounts_le_submitted (B := s.cfg.blockSize) hls
  obtain ⟨d1, d2, m, hrun, hentries, hdelays⟩ := runListing_insideBlock hi hr hcnt hls (by omega)
  have hlt := hwaiting.trans_le hsubmitted
  have hread := (hentries _ hwaiting).trans (List.getElem?_eq_getElem hlt)
  have hpoll := exec_poll_reports_block (s := insideBlock s ls d1 d2 m) hi.config hr hwaiting hlast hread hdelays
  rw [List.take_concat_get' _ _ hlt, hlast] at hpoll
  refine ⟨List.length_take_of_le (by omega), m, ?_, fun j hj => ?_⟩
  · exact (runListing_append hrun).trans (runListing_cons _ [] _ hpoll)
  · rw [hentries j (by omega), List.getElem?_take_of_lt hj]

end Sys2Proof.Safety

/-! # The Digit Decoder: the family of 43_digit_decoder.md -/

namespace Sys2Proof.Machine

/-- Looking a code up in a table whose first entry is known tests that entry, then the others in order (R136). -/
theorem lookup_cons_eq_ite (code k : Code) (d : Symbol) (es : List (Code × Symbol)) :
    ((k, d) :: es).lookup code = if code = k then some d else es.lookup code := by
  by_cases hk : code = k
  · simp [hk]
  · simp [List.lookup_cons, beq_eq_false_iff_ne.2 hk, hk]

/-- DECODE is the lookup of the code in the Digit Table (R136). -/
theorem decodeDigit_eq_lookup (c : Config) (code : Code) : decodeDigit c code = c.dtab.lookup code := by
  unfold decodeDigit
  induction c.dtab with
  | nil => rfl
  | cons e es ih =>
    obtain ⟨k, d⟩ := e
    rw [lookup_cons_eq_ite]
    by_cases hk : code = k
    · simp [hk]
    · simp [hk, Ne.symm hk, ih]

/-- Settles O50: DECODE looks the code up in the default table, one entry after the other, for every code. -/
theorem defaultDecodeFunction : Obligations.DefaultDecodeFunction := by
  intro code
  rw [decodeDigit_eq_lookup]
  simp [defaultConfig, defaultDtab, lookup_cons_eq_ite]

end Sys2Proof.Machine

/-! # The Debounce Latch: the family of 44_debounce_latch.md -/

namespace Sys2Proof.Machine

/-- DEBOUNCE latches the decoded digit, and emits it unless `LATCH` held it already (R146, R148). -/
theorem debounce_eq (latch dg : Option Symbol) :
    debounce latch dg = (dg, if dg = latch then none else dg) :=
  Prod.ext (debounce_latch latch dg) (debounce_event latch dg)

/-- Settles O48: the rows of R146's table by whether the decoded digit is the one in `LATCH`, then the frame. -/
theorem debounceTransitions : Obligations.DebounceTransitions := by
  refine ⟨?idle, fun d => ?onset, fun d => ?release, fun d => ?held, fun d d' hne => ?change, fun code s => ?frame⟩
  case idle => rw [debounce_eq, if_pos rfl]
  case onset => rw [debounce_eq, if_neg (Option.some_ne_none d)]
  case release => rw [debounce_eq, if_neg (Option.some_ne_none d).symm]
  case held => rw [debounce_eq, if_pos rfl]
  case change => rw [debounce_eq, if_neg fun h => hne (Option.some.inj h).symm]
  case frame => rw [concludeBlock_eq, debounce_latch]

end Sys2Proof.Machine

/-! # NOP and INIT: the family of 45_host_operations.md -/

namespace Sys2Proof.Machine

variable {s : State} {t : Word16}

/-- The word of an INIT: `op = 01` over the Threshold (R70, R72). -/
theorem encode_init (t : Word16) : encode (.init t) = .req (0x10000 + t.setWidth 18) := by
  have hword : reqWord 0b01#2 t = 0x10000 + t.setWidth 18 := by
    have hfields := reqWord_toNat 0b01#2 t
    bv_omega
  exact congrArg InstrWord.req hword

/-! ### Admission of INIT (R72, R157) -/

theorem thresholdLegal_iff : thresholdLegal t = true ↔ t ≠ 0 := bne_iff_ne

theorem inFlight_iff : inFlight s = true ↔ s.cnt ≠ 0 ∨ s.idx ≠ 0 := by
  simp [inFlight]

/-- Where R157 admits it, INIT completes with the whole of its effect. -/
theorem exec_init_of_admitted (hc : configWf s.cfg = true) (ht : t ≠ 0)
    (hadmit : s.ready = false ∨ (s.cnt = 0 ∧ s.idx = 0)) : exec (.init t) s = .next (startUp t s) :=
  execInit_next.2 ⟨hc, ht, hadmit, rfl⟩

theorem exec_init_of_inFlight (hc : configWf s.cfg = true) (ht : t ≠ 0) (hr : s.ready = true)
    (hflight : s.cnt ≠ 0 ∨ s.idx ≠ 0) : exec (.init t) s = .refused .initInFlight := by
  have hbusy : (s.ready && inFlight s) = true := Bool.and_eq_true_iff.2 ⟨hr, inFlight_iff.2 hflight⟩
  exact (whenConfigured_of hc).trans ((if_pos (thresholdLegal_iff.2 ht)).trans (if_pos hbusy))

/-- The test of the operand stands before that of the block in flight. -/
theorem exec_init_zero (hc : configWf s.cfg = true) : exec (.init 0) s = .refused .badThreshold :=
  (whenConfigured_of hc).trans (if_neg fun h => thresholdLegal_iff.1 h rfl)

/-- Between blocks every element but `THRESH` and `LATCH` already holds the value INIT gives it (R26, R157 (b)). -/
theorem startUp_between_blocks (hi : Safety.Inv s) (hr : s.ready = true) (hcnt : s.cnt = 0) (hidx : s.idx = 0) :
    startUp t s = { s with thresh := t, latch := none } := by
  obtain ⟨hd1, hd2⟩ := hi.fresh hr hidx
  simp [startUp_eq, hd1, hd2, hcnt, hidx, hr]

/-! ### The statements -/

/-- Settles O12: NOP's one guard is the well-formed configuration. -/
theorem nopChangesNothing : Obligations.NopChangesNothing :=
  ⟨rfl, rfl, fun _ hc => execNop_next.2 ⟨hc, rfl⟩⟩

/-- Settles O13: an admitted INIT completes, and its effect is the stated record. -/
theorem initSetsEverythingButTheBuffer : Obligations.InitSetsEverythingButTheBuffer :=
  ⟨fun t => ⟨encode_init t, rfl⟩, fun _ _ hc ht hadmit => exec_init_of_admitted hc ht hadmit⟩

/-- Settles O14, one clause of R157 at a time. -/
theorem initAdmission : Obligations.InitAdmission := by
  intro s t hc
  refine ⟨?first, ?between, ?betweenInv, ?inFlight, ?zeroIdle, ?zero⟩
  case first => exact fun hr ht => ⟨startUp t s, exec_init_of_admitted hc ht (.inl hr)⟩
  case between =>
    exact fun _ hcnt hidx ht => ⟨startUp t s, exec_init_of_admitted hc ht (.inr ⟨hcnt, hidx⟩), rfl, rfl⟩
  case betweenInv =>
    intro hi hr hcnt hidx ht
    rw [exec_init_of_admitted hc ht (.inr ⟨hcnt, hidx⟩), startUp_between_blocks hi hr hcnt hidx]
  case inFlight => exact fun hr hflight ht => exec_init_of_inFlight hc ht hr hflight
  case zeroIdle => exact fun _ => exec_init_zero hc
  case zero => exact ⟨.badThreshold, exec_init_zero hc⟩

end Sys2Proof.Machine

/-! # What stops a request, and what none can break: the family of 60_exceptions.md -/

namespace Sys2Proof.Safety

open Sys2Proof.Machine

variable {s t : State} {a : Agent} {i : Instr} {w : Req} {raw : Word16}

/-! ### The invariant over the writes of an operation -/

theorem blockSize_pos_of_configWf {c : Config} (h : configWf c = true) : 0 < c.blockSize := by
  simp only [configWf, Bool.and_eq_true, decide_eq_true_eq] at h
  omega

/-- The invariant does not read the request queues. -/
theorem Inv.setRequests (hi : Inv s) (ps cs : List Req) (n : Nat) : Inv (s.setRequests ps cs n) := { hi with }

/-- The invariant does not read the responses. -/
theorem Inv.respond (hi : Inv s) (ev : Option Symbol) : Inv (s.respond ev) := { hi with }

/-- The invariant does not read `LATCH`. -/
theorem Inv.setLatch (hi : Inv s) (l : Option Symbol) : Inv (s.setLatch l) := { hi with }

theorem Inv.concludeBlock (hi : Inv s) (code : Code) : Inv (concludeBlock code s) :=
  (hi.setLatch _).respond _

/-- A state at the start of a block, over the configuration and the buffer of a state of the invariant: what INIT and a
block's completion leave (R26, R110, R156). -/
theorem Inv.of_blockStart (hi : Inv s) (hcfg : t.cfg = s.cfg) (hbuf : t.buf = s.buf) (hcnt : t.cnt = 0)
    (hidx : t.idx = 0) (hd1 : t.d1 = zeroLanes) (hd2 : t.d2 = zeroLanes)
    (hthresh : t.ready = true → t.thresh ≠ 0) : Inv t where
  config := hcfg ▸ hi.config
  canonical := hbuf ▸ hi.canonical
  indexes := hbuf ▸ hcfg ▸ hi.indexes
  samples := hbuf ▸ hcfg ▸ hi.samples
  counters _ := by
    have hB := blockSize_pos_of_configWf hi.config
    rw [hcnt, hidx, hcfg]
    omega
  accepted _ j hj := absurd hj (by omega)
  fresh _ _ := ⟨hd1, hd2⟩
  threshold := hthresh

theorem Inv.startUp (hi : Inv s) {x : Word16} (hx : x ≠ 0) : Inv (startUp x s) :=
  hi.of_blockStart rfl rfl rfl rfl rfl rfl fun _ => hx

/-- The completion of a block (R110). -/
theorem Inv.completed (hi : Inv s) (raw : Word16) :
    Inv (((afterSample raw s).setDelays zeroLanes zeroLanes).setCounters 0 0) :=
  hi.of_blockStart rfl rfl rfl rfl rfl rfl hi.threshold

/-- A sample inside a block: `IDX` moves to an index that is still below `BLOCK_SIZE` (R106). -/
theorem Inv.afterSample (hi : Inv s) (havail : s.idx < s.cnt) (hmore : s.idx + 1 ≠ s.cfg.blockSize) :
    Inv (afterSample raw s) where
  config := hi.config
  canonical := hi.canonical
  indexes := hi.indexes
  samples := hi.samples
  counters hr := by
    have hcounters : s.idx ≤ s.cnt ∧ s.cnt ≤ s.cfg.blockSize ∧ s.idx < s.cfg.blockSize := hi.counters hr
    change s.idx + 1 ≤ s.cnt ∧ s.cnt ≤ s.cfg.blockSize ∧ s.idx + 1 < s.cfg.blockSize
    omega
  accepted := hi.accepted
  fresh _ hidx := absurd hidx (Nat.succ_ne_zero s.idx)
  threshold := hi.threshold

/-- An accepted sample: the one entry written is at `CNT`, and it is the one more that counts as accepted (R91). -/
theorem Inv.append (hi : Inv s) (hraw : raw.toNat < 2 ^ s.cfg.sampleW) (hroom : s.cnt < s.cfg.blockSize) :
    Inv { s with buf := Memory.write s.buf s.cnt raw, cnt := s.cnt + 1 } where
  config := hi.config
  canonical := Memory.wf_write hi.canonical _ _
  indexes e he := by
    rcases Memory.mem_write he with rfl | hold
    · exact hroom
    · exact hi.indexes e hold
  samples e he := by
    rcases Memory.mem_write he with rfl | hold
    · exact hraw
    · exact hi.samples e hold
  counters hr := by
    have hcounters := hi.counters hr
    change s.idx ≤ s.cnt + 1 ∧ s.cnt + 1 ≤ s.cfg.blockSize ∧ s.idx < s.cfg.blockSize
    omega
  accepted hr j (hj : j < s.cnt + 1) := by
    rw [Memory.read_write]
    split
    · rfl
    · next hne => exact hi.accepted hr j (by omega)
  fresh := hi.fresh
  threshold := hi.threshold

/-- Every instruction that completes keeps the invariant. -/
theorem exec_keeps_inv (hi : Inv s) (h : exec i s = .next t) : Inv t := by
  obtain ⟨-, hcases⟩ := exec_next_cases h
  rcases hcases with ⟨-, rfl⟩ | ⟨x, -, hx, -, rfl⟩ | ⟨-, raw, -, hfits, hroom, rfl⟩ | ⟨-, raw, -, -, -, rfl⟩
    | ⟨-, -, -, rfl⟩ | ⟨-, -, havail, raw, -, -, hmore, rfl⟩ | ⟨-, -, -, raw, -, -, rfl⟩ | ⟨-, c, -, rfl⟩
  · exact hi
  · exact hi.startUp hx
  · exact hi.append ((rawFits_iff _ _).1 hfits) hroom
  · exact hi
  · exact hi.respond none
  · exact (hi.afterSample havail hmore).respond none
  · exact (hi.completed raw).concludeBlock _
  · exact hi.concludeBlock c

/-! ### No fault (R53, R170) -/

/-- The one instruction that can fault is a POLL with a sample available, at its read of the buffer. -/
theorem exec_fault {f : Fault} (h : exec i s = .fault f) :
    i = .poll ∧ s.ready = true ∧ s.idx < s.cnt ∧ readSample s = .error f := by
  cases i with
  | nop => exact absurd (whenConfigured_fault.1 h).2 (by simp)
  | init x =>
    have hbody := (whenConfigured_fault.1 h).2
    split at hbody
    · split at hbody <;> cases hbody
    · cases hbody
  | submit raw =>
    obtain ⟨-, -, hbody⟩ := whenReady_fault.1 h
    split at hbody <;> cases hbody
  | poll => exact ⟨rfl, (execPoll_fault.1 h).2⟩
  | _ => exact absurd (whenReady_fault.1 h).2.2 (by simp)

/-- Under the invariant the entry a POLL takes has been written (R32, R53). -/
theorem readSample_of_inv (hi : Inv s) (hr : s.ready = true) (havail : s.idx < s.cnt) :
    ∃ raw, readSample s = .ok raw := by
  obtain ⟨-, -, hidx⟩ := hi.counters hr
  obtain ⟨raw, hread⟩ := Option.isSome_iff_exists.1 (hi.accepted hr s.idx havail)
  exact ⟨raw, readSample_ok.2 ⟨hidx, hread⟩⟩

theorem exec_ne_fault (hi : Inv s) (f : Fault) : exec i s ≠ .fault f := by
  intro h
  obtain ⟨-, hr, havail, herror⟩ := exec_fault h
  obtain ⟨raw, hok⟩ := readSample_of_inv hi hr havail
  cases herror.symm.trans hok

/-- An operation issued in a state of the invariant completes in one, or is refused. -/
theorem issue_of_inv (a : Agent) (i : Instr) (hi : Inv s) :
    (∃ t, issue a i s = .next t ∧ Inv t) ∨ ∃ r, issue a i s = .refused r := by
  unfold issue
  split
  · cases hexec : exec i s with
    | next t => exact .inl ⟨t, rfl, exec_keeps_inv hi hexec⟩
    | fault f => exact absurd hexec (exec_ne_fault hi f)
    | refused r => exact .inr ⟨r, rfl⟩
  · exact .inr ⟨.wrongAgent, rfl⟩

theorem serve_ne_fault (hi : Inv s) (f : Fault) : serve a w s ≠ .fault f := by
  unfold serve
  cases decodeRequest s.cfg.sampleW w with
  | error e => simp
  | ok i =>
    rcases issue_of_inv a i hi with ⟨t, hnext, -⟩ | ⟨r, hrefused⟩
    · simp [hnext]
    · simp [hrefused]

theorem step_ne_fault (hi : Inv s) (f : Fault) : step s ≠ .fault f := by
  rcases step_eq s with ⟨-, -, hidle⟩ | ⟨a, w, u, hreq, hserve⟩
  · simp [hidle]
  · obtain ⟨ps, cs, n, rfl, -⟩ := nextRequest_some hreq
    exact hserve ▸ serve_ne_fault (hi.setRequests ps cs n) f

/-- Settles O33: a step serves one issued operation, and no operation issued in a state of the invariant faults. -/
theorem admittedRequestsNeverFault : Obligations.AdmittedRequestsNeverFault := fun _ hi =>
  ⟨step_ne_fault hi, fun a i => issue_of_inv a i hi⟩

/-! ### The closed list of refusals (R174) -/

variable {r : Refusal} {n : Nat}

/-- The requests outside the block's contract: the closed list of R174. -/
def OutsideContract (a : Agent) (w : Req) (s : State) : Prop :=
  configWf s.cfg = false
    ∨ IllegalWord s.cfg.sampleW w
    ∨ (a = .producer ∧ w.toNat / 2 ^ 16 ≠ 2)
    ∨ (a = .consumer ∧ w.toNat / 2 ^ 16 = 2)
    ∨ (s.ready = false ∧ 2 ≤ w.toNat / 2 ^ 16)
    ∨ (s.ready = true ∧ (s.cnt ≠ 0 ∨ s.idx ≠ 0) ∧ w.toNat / 2 ^ 16 = 1)

/-- The condition a named reason stands for (R174). -/
def TrueReason (a : Agent) (w : Req) (s : State) (r : Refusal) : Prop :=
  (r = .badConfig ∧ configWf s.cfg = false)
    ∨ (r = .wrongAgent ∧ ((a = .producer ∧ w.toNat / 2 ^ 16 ≠ 2) ∨ (a = .consumer ∧ w.toNat / 2 ^ 16 = 2)))
    ∨ (r = .reservedBits ∧ IllegalWord s.cfg.sampleW w ∧ w.toNat / 2 ^ 16 ≠ 1)
    ∨ (r = .badThreshold ∧ w.toNat / 2 ^ 16 = 1 ∧ w.toNat % 2 ^ 16 = 0)
    ∨ (r = .notReady ∧ s.ready = false ∧ 2 ≤ w.toNat / 2 ^ 16)
    ∨ (r = .initInFlight ∧ s.ready = true ∧ (s.cnt ≠ 0 ∨ s.idx ≠ 0) ∧ w.toNat / 2 ^ 16 = 1)

theorem TrueReason.outsideContract (h : TrueReason a w s r) : OutsideContract a w s := by
  rcases h with ⟨-, hconfig⟩ | ⟨-, hproducer | hconsumer⟩ | ⟨-, hillegal, -⟩ | ⟨-, hzero⟩ | ⟨-, hready⟩ | ⟨-, hflight⟩
  · exact .inl hconfig
  · exact .inr (.inr (.inl hproducer))
  · exact .inr (.inr (.inr (.inl hconsumer)))
  · exact .inr (.inl hillegal)
  · exact .inr (.inl (.inr (.inr hzero)))
  · exact .inr (.inr (.inr (.inr (.inl hready))))
  · exact .inr (.inr (.inr (.inr (.inr hflight))))

/-! ### The word's fields as numbers -/

theorem reqOp_eq_iff {op : BitVec 2} : reqOp w = op ↔ w.toNat / 2 ^ 16 = op.toNat := by
  rw [← BitVec.toNat_inj, reqOp_toNat]

theorem reqArg_eq_zero_iff : reqArg w = 0 ↔ w.toNat % 2 ^ 16 = 0 := by
  rw [← BitVec.toNat_inj, reqArg_toNat]
  rfl

theorem rawFits_reqArg_iff : rawFits n (reqArg w) = true ↔ w.toNat % 2 ^ 16 < 2 ^ n := by
  rw [rawFits_iff, reqArg_toNat]

/-- The words the decoder accepts by their fields: one case per request operation (R70 to R74). -/
theorem decodeRequest_ok_fields :
    decodeRequest n w = .ok i ↔
      (w.toNat / 2 ^ 16 = 0 ∧ w.toNat % 2 ^ 16 = 0 ∧ i = .nop) ∨
      (w.toNat / 2 ^ 16 = 1 ∧ i = .init (reqArg w)) ∨
      (w.toNat / 2 ^ 16 = 2 ∧ w.toNat % 2 ^ 16 < 2 ^ n ∧ i = .submit (reqArg w)) ∨
      (w.toNat / 2 ^ 16 = 3 ∧ w.toNat % 2 ^ 16 = 0 ∧ i = .poll) := by
  simp only [decodeRequest_ok, reqOp_eq_iff, reqArg_eq_zero_iff, rawFits_reqArg_iff]
  rfl

/-- The decoder rejects only illegal words, and no word of INIT (R81). -/
theorem illegalWord_of_decodeRequest_error {e : Reject} (h : decodeRequest n w = .error e) :
    IllegalWord n w ∧ w.toNat / 2 ^ 16 ≠ 1 := by
  have hrejected (i : Instr) := mt decodeRequest_ok_fields.2 (show decodeRequest n w ≠ .ok i by simp [h])
  have hnop := hrejected .nop
  have hinit := hrejected (.init (reqArg w))
  have hsubmit := hrejected (.submit (reqArg w))
  have hpoll := hrejected .poll
  simp only [reduceCtorEq, and_true, and_false, or_false, false_or] at hnop hinit hsubmit hpoll
  have hbound := w.isLt
  unfold IllegalWord
  omega

/-- The one illegal word that decodes is INIT with operand 0 (R72, R81). -/
theorem eq_init_zero_of_illegalWord (hdecode : decodeRequest n w = .ok i) (hillegal : IllegalWord n w) :
    i = .init 0 := by
  unfold IllegalWord at hillegal
  rcases decodeRequest_ok_fields.1 hdecode with ⟨hop, harg, -⟩ | ⟨hop, rfl⟩ | ⟨hop, hfits, -⟩ | ⟨hop, harg, -⟩
  · omega
  · exact congrArg Instr.init (reqArg_eq_zero_iff.2 (by omega))
  · omega
  · omega

@[simp] theorem permitted_nop : permitted a .nop = decide (a = .consumer) := by cases a <;> rfl

@[simp] theorem permitted_init {x : Word16} : permitted a (.init x) = decide (a = .consumer) := by cases a <;> rfl

@[simp] theorem permitted_submit {raw : Word16} : permitted a (.submit raw) = decide (a = .producer) := by
  cases a <;> rfl

@[simp] theorem permitted_poll : permitted a .poll = decide (a = .consumer) := by cases a <;> rfl

/-- The wrong agent of a word the decoder accepts: the Producer's only operation is SUBMIT, and no other agent's (R71). -/
theorem not_permitted_iff (hdecode : decodeRequest n w = .ok i) :
    permitted a i = false ↔
      (a = .producer ∧ w.toNat / 2 ^ 16 ≠ 2) ∨ (a = .consumer ∧ w.toNat / 2 ^ 16 = 2) := by
  rcases decodeRequest_ok_fields.1 hdecode with ⟨hop, -, rfl⟩ | ⟨hop, rfl⟩ | ⟨hop, -, rfl⟩ | ⟨hop, -, rfl⟩ <;>
    rw [hop] <;> cases a <;> simp

/-! ### The reason an operation names is true -/

theorem execNop_refused : execNop s = .refused r ↔ configWf s.cfg = false ∧ r = .badConfig := by
  simp [execNop, whenConfigured_refused]

theorem execInit_refused_cases {x : Word16} (h : execInit x s = .refused r) :
    (configWf s.cfg = false ∧ r = .badConfig) ∨ (x = 0 ∧ r = .badThreshold) ∨
      (s.ready = true ∧ (s.cnt ≠ 0 ∨ s.idx ≠ 0) ∧ r = .initInFlight) := by
  rcases whenConfigured_refused.1 h with hconfig | ⟨-, hbody⟩
  · exact .inl hconfig
  · split at hbody
    · split at hbody
      · next hbusy =>
        obtain ⟨hr, hflight⟩ := Bool.and_eq_true_iff.1 hbusy
        cases hbody
        exact .inr (.inr ⟨hr, inFlight_iff.1 hflight, rfl⟩)
      · cases hbody
    · next hzero =>
      cases hbody
      exact .inr (.inl ⟨by simpa [thresholdLegal_iff] using hzero, rfl⟩)

theorem execSubmit_refused_cases {raw : Word16} (h : execSubmit raw s = .refused r) :
    (configWf s.cfg = false ∧ r = .badConfig) ∨ (s.ready = false ∧ r = .notReady) ∨
      (¬ rawFits s.cfg.sampleW raw = true ∧ r = .reservedBits) := by
  rcases whenReady_refused.1 h with hconfig | ⟨-, hready⟩ | ⟨-, -, hbody⟩
  · exact .inl hconfig
  · exact .inr (.inl hready)
  · split at hbody
    · cases hbody
    · next hbits =>
      cases hbody
      exact .inr (.inr ⟨hbits, rfl⟩)

theorem TrueReason.of_badConfig (h : configWf s.cfg = false ∧ r = .badConfig) : TrueReason a w s r :=
  .inl h.symm

theorem TrueReason.of_notReady (hop : 2 ≤ w.toNat / 2 ^ 16) (h : s.ready = false ∧ r = .notReady) :
    TrueReason a w s r :=
  .inr (.inr (.inr (.inr (.inl ⟨h.2, h.1, hop⟩))))

/-- What the instruction of a word is refused for holds of the word and the state. -/
theorem trueReason_of_exec_refused (hdecode : decodeRequest s.cfg.sampleW w = .ok i)
    (h : exec i s = .refused r) : TrueReason a w s r := by
  rcases decodeRequest_ok_fields.1 hdecode with ⟨-, -, rfl⟩ | ⟨hop, rfl⟩ | ⟨hop, hfits, rfl⟩ | ⟨hop, -, rfl⟩
  · exact .of_badConfig (execNop_refused.1 h)
  · rcases execInit_refused_cases h with hconfig | ⟨hzero, hr⟩ | ⟨hready, hflight, hr⟩
    · exact .of_badConfig hconfig
    · exact .inr (.inr (.inr (.inl ⟨hr, hop, reqArg_eq_zero_iff.1 hzero⟩)))
    · exact .inr (.inr (.inr (.inr (.inr ⟨hr, hready, hflight, hop⟩))))
  · rcases execSubmit_refused_cases h with hconfig | hready | ⟨hbits, -⟩
    · exact .of_badConfig hconfig
    · exact .of_notReady (by omega) hready
    · exact absurd (rawFits_reqArg_iff.2 hfits) hbits
  · rcases execPoll_refused.1 h with hconfig | ⟨-, hready⟩
    · exact .of_badConfig hconfig
    · exact .of_notReady (by omega) hready

theorem trueReason_of_serve_refused (h : serve a w s = .refused r) : TrueReason a w s r := by
  unfold serve at h
  split at h
  · next i hdecode =>
    unfold issue at h
    split at h
    · exact trueReason_of_exec_refused hdecode h
    · next hagent =>
      cases h
      exact .inr (.inl ⟨rfl, (not_permitted_iff hdecode).1 (Bool.eq_false_iff.2 hagent)⟩)
  · next e herror =>
    cases h
    exact .inr (.inr (.inl ⟨rfl, illegalWord_of_decodeRequest_error herror⟩))

/-! ### Outside the contract a request is refused -/

theorem exec_of_badConfig (hc : configWf s.cfg = false) (i : Instr) : exec i s = .refused .badConfig := by
  cases i <;> exact if_neg (by simp [hc])

/-- A request is refused by the decoder, by the agent check or by its instruction. -/
theorem serve_refused_of_exec
    (h : ∀ i, decodeRequest s.cfg.sampleW w = .ok i → permitted a i = true → ∃ r, exec i s = .refused r) :
    ∃ r, serve a w s = .refused r := by
  unfold serve
  cases hdecode : decodeRequest s.cfg.sampleW w with
  | error e => exact ⟨.reservedBits, rfl⟩
  | ok i =>
    cases hp : permitted a i with
    | false => exact ⟨.wrongAgent, by simp [issue, hp]⟩
    | true => simpa [issue, hp] using h i hdecode hp

theorem serve_refused_of_outsideContract (h : OutsideContract a w s) : ∃ r, serve a w s = .refused r := by
  refine serve_refused_of_exec fun i hdecode hp => ?_
  cases hc : configWf s.cfg with
  | false => exact ⟨.badConfig, exec_of_badConfig hc i⟩
  | true =>
    have hagent := mt (not_permitted_iff hdecode).2 (ne_false_of_eq_true hp)
    rcases h with hconfig | hillegal | hproducer | hconsumer | ⟨hr, hop⟩ | ⟨hr, hflight, hop⟩
    · cases hc.symm.trans hconfig
    · cases eq_init_zero_of_illegalWord hdecode hillegal
      exact ⟨.badThreshold, exec_init_zero hc⟩
    · exact absurd (.inl hproducer) hagent
    · exact absurd (.inr hconsumer) hagent
    · rcases decodeRequest_ok_fields.1 hdecode with ⟨hop', -, -⟩ | ⟨hop', -⟩ | ⟨-, -, rfl⟩ | ⟨-, -, rfl⟩
      · omega
      · omega
      · exact ⟨.notReady, exec_submit_of_not_ready _ hc hr⟩
      · exact ⟨.notReady, exec_poll_of_not_ready hc hr⟩
    · rcases decodeRequest_ok_fields.1 hdecode with ⟨hop', -, -⟩ | ⟨-, rfl⟩ | ⟨hop', -, -⟩ | ⟨hop', -, -⟩
      · omega
      · by_cases hzero : reqArg w = 0
        · exact ⟨.badThreshold, hzero ▸ exec_init_zero hc⟩
        · exact ⟨.initInFlight, exec_init_of_inFlight hc hzero hr hflight⟩
      · omega
      · omega

/-- Settles O11: every reason named is true, so a refused request lies outside the contract; and a request outside it
is refused by whichever check meets it first. -/
theorem refusalsAreTheClosedList : Obligations.RefusalsAreTheClosedList := fun _ _ _ =>
  ⟨⟨fun ⟨_, h⟩ => (trueReason_of_serve_refused h).outsideContract, serve_refused_of_outsideContract⟩,
    fun _ => trueReason_of_serve_refused⟩

end Sys2Proof.Safety

/-! # Right after hardware reset (R190): the family of 70_reset_and_hazards.md -/

namespace Sys2Proof.Machine

@[simp] theorem State.afterReset_ready (c : Config) : (State.afterReset c).ready = false := rfl

@[simp] theorem State.afterReset_cfg (c : Config) : (State.afterReset c).cfg = c := rfl

/-- Settles O42: reset leaves `READY = 0`, and while it is 0 an instruction that completes is NOP or INIT. -/
theorem hardwareReset : Obligations.HardwareReset := by
  refine ⟨State.afterReset_cfg defaultConfig, fun c =>
    ⟨State.afterReset_ready c, State.afterReset_cfg c, fun i t h => ?_⟩⟩
  rcases exec_next_of_not_ready (State.afterReset_ready c) h with ⟨hnop, -⟩ | ⟨x, hinit, -⟩
  · exact .inl hnop
  · exact .inr ⟨x, hinit⟩

end Sys2Proof.Machine

/-! # Words and instructions: each is the other's only reading (30_encoding.md) -/

namespace Sys2Proof

open Machine Safety

variable {n : Nat} {w : Req} {c : Code} {i : Instr}

/-! ### The decoder and the encoder -/

/-- A request word the decoder accepts is the word of what it decodes to. -/
theorem encode_of_decodeRequest (h : decodeRequest n w = .ok i) : encode i = .req w := by
  rcases decodeRequest_ok.1 h with ⟨hop, harg, rfl⟩ | ⟨hop, rfl⟩ | ⟨hop, -, rfl⟩ | ⟨hop, harg, rfl⟩
  · exact congrArg InstrWord.req (by rw [← hop, ← harg, reqWord_fields])
  · exact congrArg InstrWord.req (by rw [← hop, reqWord_fields])
  · exact congrArg InstrWord.req (by rw [← hop, reqWord_fields])
  · exact congrArg InstrWord.req (by rw [← hop, ← harg, reqWord_fields])

theorem decodeRequest_init (n : Nat) (t : Word16) : decodeRequest n (reqWord 0b01#2 t) = .ok (.init t) :=
  decodeRequest_ok.2 (.inr (.inl ⟨reqOp_reqWord _ _, by rw [reqArg_reqWord]⟩))

theorem decodeRequest_submit {raw : Word16} (h : rawFits n raw = true) :
    decodeRequest n (reqWord 0b10#2 raw) = .ok (.submit raw) :=
  decodeRequest_ok.2 (.inr (.inr (.inl ⟨reqOp_reqWord _ _, by rwa [reqArg_reqWord], by rw [reqArg_reqWord]⟩)))

/-- A Detection Code's row decodes from its code. -/
theorem decodeWord_of_code (h : encode i = .code c) : decodeWord n (encode i) = .ok i := by
  rw [h]
  exact decodeCode_ok.2 h

/-- Settles O1, one row of the opcode table at a time; the rows of Detection Codes need no operand. -/
theorem decodeInvertsEncode : Obligations.DecodeInvertsEncode := by
  intro n i hwf
  cases i with
  | nop => exact decodeRequest_ok.2 (.inl ⟨rfl, rfl, rfl⟩)
  | init t => exact decodeRequest_init n t
  | submit raw => exact decodeRequest_submit ((rawFits_iff n raw).2 (of_decide_eq_true hwf))
  | poll => exact decodeRequest_ok.2 (.inr (.inr (.inr ⟨rfl, rfl, rfl⟩)))
  | _ => exact decodeWord_of_code rfl

/-- Settles O2, one word format at a time. -/
theorem encodeInvertsDecode : Obligations.EncodeInvertsDecode := by
  intro n w i h
  cases w with
  | req w => exact encode_of_decodeRequest h
  | code c => exact decodeCode_ok.1 h

/-! ### The legal request words (R81) -/

/-- What a word that is not illegal decodes to is well formed: the operands R72 and R73 forbid make it illegal. -/
theorem wf_of_decodeRequest (h : decodeRequest n w = .ok i) (hlegal : ¬ IllegalWord n w) : i.wf n = true := by
  rcases decodeRequest_ok_fields.1 h with ⟨-, -, rfl⟩ | ⟨hop, rfl⟩ | ⟨-, hfits, rfl⟩ | ⟨-, -, rfl⟩
  · rfl
  · have harg : reqArg w ≠ 0 := fun hzero => hlegal (.inr (.inr ⟨hop, reqArg_eq_zero_iff.1 hzero⟩))
    exact bne_iff_ne.2 harg
  · exact decide_eq_true (by rwa [reqArg_toNat])
  · rfl

/-- Settles O3: the one illegal word that decodes is that of INIT 0, which is not well formed; and the decoder rejects
only illegal words. -/
theorem legalRequestWords : Obligations.LegalRequestWords := by
  intro n w
  constructor
  · rintro ⟨i, hdecode, hwf⟩ hillegal
    cases eq_init_zero_of_illegalWord hdecode hillegal
    exact absurd hwf Bool.false_ne_true
  · intro hlegal
    cases hdecode : decodeRequest n w with
    | error e => exact absurd (illegalWord_of_decodeRequest_error hdecode).1 hlegal
    | ok i => exact ⟨i, rfl, wf_of_decodeRequest hdecode hlegal⟩

/-- Settles O4: the decoder evaluated at the words the spec lists. -/
theorem wordsOfTheSpecDecode : Obligations.WordsOfTheSpecDecode := by
  unfold Obligations.WordsOfTheSpecDecode
  decide

end Sys2Proof

/-! # The invariant and the filter's invariant are kept (10_state.md, 20_memory.md, 41_filter_bank.md) -/

namespace Sys2Proof.Safety

open Sys2Proof.Machine

variable {s t : State} {i : Instr} {raw : Word16}

/-- Settles O30: a step takes a request from the queues, which the invariant does not read, and runs one instruction. -/
theorem everyStepKeepsTheInvariant : Obligations.EveryStepKeepsTheInvariant := by
  intro s t hi h
  rcases step_next_cases h with rfl | ⟨i, ps, cs, n, hexec⟩
  · exact hi
  · exact exec_keeps_inv (hi.setRequests ps cs n) hexec

/-- Before the first INIT the invariant asks for the configuration and the buffer's form, which an empty one has. -/
theorem inv_afterReset {c : Config} (h : configWf c = true) : Inv (State.afterReset c) where
  config := h
  canonical := rfl
  indexes _ he := absurd he List.not_mem_nil
  samples _ he := absurd he List.not_mem_nil
  counters hr := absurd hr Bool.false_ne_true
  accepted hr := absurd hr Bool.false_ne_true
  fresh hr := absurd hr Bool.false_ne_true
  threshold hr := absurd hr Bool.false_ne_true

theorem filtered_of_not_ready (h : s.ready = false) : Filtered s := fun hr => by simp [h] at hr

/-- Settles O29: after reset `READY = 0`. -/
theorem resetMeetsTheInvariant : Obligations.ResetMeetsTheInvariant :=
  ⟨⟨inv_afterReset (by decide), filtered_of_not_ready rfl⟩,
    fun _ h => ⟨inv_afterReset h, filtered_of_not_ready rfl⟩⟩

/-! ### The filter's invariant over the writes of an operation -/

/-- The filter's invariant does not read the request queues. -/
theorem Filtered.setRequests (hf : Filtered s) (ps cs : List Req) (n : Nat) : Filtered (s.setRequests ps cs n) := hf

/-- The filter's invariant does not read the responses. -/
theorem Filtered.respond (hf : Filtered s) (ev : Option Symbol) : Filtered (s.respond ev) := hf

/-- The filter's invariant does not read `LATCH`. -/
theorem Filtered.concludeBlock (hf : Filtered s) (code : Code) : Filtered (concludeBlock code s) := hf

/-- At the start of a block no sample has been consumed and the registers are 0 (R26). -/
theorem filtered_of_blockStart (hidx : s.idx = 0) (hd1 : s.d1 = zeroLanes) (hd2 : s.d2 = zeroLanes) : Filtered s := by
  intro _ k
  simp [hidx, hd1, hd2, zeroLanes, firstEntries, centeredAll, goertzel]

/-- A sample appended at `CNT` lies beyond those consumed. -/
theorem Filtered.append (hf : Filtered s) (hi : Inv s) :
    Filtered { s with buf := Memory.write s.buf s.cnt raw, cnt := s.cnt + 1 } := by
  intro hr k
  have hconsumed : firstEntries { s with buf := Memory.write s.buf s.cnt raw, cnt := s.cnt + 1 } s.idx =
      firstEntries s s.idx := by
    refine firstEntries_congr fun j hj => Memory.read_write_other _ _ ?_
    have hle := (hi.counters hr).1
    omega
  rw [hconsumed]
  exact hf hr k

/-- The sample consumed is the next one of the recurrence (R106, R108). -/
theorem Filtered.afterSample (hf : Filtered s) (hread : Memory.read s.buf s.idx = some raw) :
    Filtered (afterSample raw s) := by
  intro hr k
  have hentries : firstEntries (Machine.afterSample raw s) (s.idx + 1) = firstEntries s s.idx ++ [raw] :=
    firstEntries_succ hread
  have hfollows := filterSample_follows (raw := raw) (hf hr k)
  rwa [← hentries] at hfollows

/-- Every instruction that completes keeps the filter's invariant. -/
theorem exec_keeps_filtered (hi : Inv s) (hf : Filtered s) (h : exec i s = .next t) : Filtered t := by
  obtain ⟨-, hcases⟩ := exec_next_cases h
  rcases hcases with ⟨-, rfl⟩ | ⟨x, -, -, -, rfl⟩ | ⟨-, raw, -, -, -, rfl⟩ | ⟨-, raw, -, -, -, rfl⟩
    | ⟨-, -, -, rfl⟩ | ⟨-, -, -, raw, -, hread, -, rfl⟩ | ⟨-, -, -, raw, -, -, rfl⟩ | ⟨-, c, -, rfl⟩
  · exact hf
  · exact filtered_of_blockStart rfl rfl rfl
  · exact hf.append hi
  · exact hf
  · exact hf.respond none
  · exact (hf.afterSample hread).respond none
  · exact Filtered.concludeBlock (filtered_of_blockStart rfl rfl rfl) _
  · exact hf.concludeBlock c

/-- Settles O31: a step runs one instruction, whichever agent's request comes next. -/
theorem everyStepKeepsTheFilter : Obligations.EveryStepKeepsTheFilter := by
  intro s t hi hf h
  rcases step_next_cases h with rfl | ⟨i, ps, cs, n, hexec⟩
  · exact hf
  · exact exec_keeps_filtered (hi.setRequests ps cs n) (hf.setRequests ps cs n) hexec

end Sys2Proof.Safety

/-! # What no later operation can tell apart (10_state.md R32, R35) -/

namespace Sys2Proof.Safety

open Sys2Proof.Machine

variable {s t : State} {raw : Word16}

/-- Two outcomes that no later operation can tell apart: the same stop, or states that agree. -/
inductive Alike : Host.Outcome State Fault Refusal → Host.Outcome State Fault Refusal → Prop where
  | next {s t : State} (h : Agree s t) : Alike (.next s) (.next t)
  | fault (f : Fault) : Alike (.fault f) (.fault f)
  | refused (r : Refusal) : Alike (.refused r) (.refused r)

/-! ### The writes of an operation keep the agreement -/

theorem Agree.setRequests (h : Agree s t) (ps cs : List Req) (n : Nat) :
    Agree (s.setRequests ps cs n) (t.setRequests ps cs n) :=
  { h with producer := rfl, consumer := rfl, turn := rfl }

theorem Agree.respond (h : Agree s t) (ev : Option Symbol) : Agree (s.respond ev) (t.respond ev) :=
  { h with responses := congrArg (· ++ [rspWord ev]) h.responses }

theorem Agree.concludeBlock (h : Agree s t) (code : Code) : Agree (concludeBlock code s) (concludeBlock code t) := by
  rw [concludeBlock_eq, concludeBlock_eq, ← h.cfg, ← h.latch, ← h.responses]
  exact { h with cfg := rfl, latch := rfl, responses := rfl }

/-- INIT leaves no entry live and overwrites the rest of what can be read (R35, R156). -/
theorem agree_startUp (hcfg : s.cfg = t.cfg) (hproducer : s.producer = t.producer)
    (hconsumer : s.consumer = t.consumer) (hunit : s.unitId = t.unitId) (hturn : s.turn = t.turn)
    (hresponses : s.responses = t.responses) (x : Word16) : Agree (startUp x s) (startUp x t) :=
  { cfg := hcfg, producer := hproducer, consumer := hconsumer, unitId := hunit, turn := hturn
    responses := hresponses, d1 := rfl, d2 := rfl, cnt := rfl, idx := rfl, thresh := rfl, latch := rfl, ready := rfl
    live := fun i _ hi => absurd hi (Nat.not_lt_zero i) }

theorem Agree.startUp (h : Agree s t) (x : Word16) : Agree (startUp x s) (startUp x t) :=
  agree_startUp h.cfg h.producer h.consumer h.unitId h.turn h.responses x

/-- The entry a SUBMIT makes live is the one it writes. -/
theorem Agree.ingest (h : Agree s t) (raw : Word16) : Agree (ingest raw s) (ingest raw t) := by
  by_cases hroom : s.cnt < s.cfg.blockSize
  · rw [ingest_room hroom, ingest_room (h.cnt ▸ h.cfg ▸ hroom)]
    refine { h with cnt := congrArg (· + 1) h.cnt, live := fun i hlow hhigh => ?_ }
    rw [← h.cnt, Memory.read_write, Memory.read_write]
    split
    · rfl
    · next hne => exact h.live i hlow (by change i < s.cnt + 1 at hhigh; omega)
  · rw [ingest_full hroom, ingest_full (h.cnt ▸ h.cfg ▸ hroom)]
    exact h

/-- A sample consumed is no longer live, and the registers take it alike. -/
theorem Agree.afterSample (h : Agree s t) (raw : Word16) : Agree (afterSample raw s) (afterSample raw t) := by
  rw [Machine.afterSample, Machine.afterSample, filterSample_advance, filterSample_advance, ← h.cfg, ← h.d1, ← h.d2]
  exact { h with
    cfg := rfl, d1 := rfl, d2 := rfl, idx := congrArg (· + 1) h.idx
    live := fun i hlow hhigh => h.live i (Nat.le_of_succ_le hlow) hhigh }

theorem Agree.detectionCode (h : Agree s t) : detectionCode s = detectionCode t := by
  rw [Machine.detectionCode, Machine.detectionCode, magnitudes, magnitudes, h.cfg, h.d1, h.d2, h.thresh]

/-- Block completion leaves no entry live (R110). -/
theorem Agree.completed (h : Agree s t) :
    Agree ((s.setDelays zeroLanes zeroLanes).setCounters 0 0) ((t.setDelays zeroLanes zeroLanes).setCounters 0 0) :=
  { h with d1 := rfl, d2 := rfl, cnt := rfl, idx := rfl, live := fun i _ hi => absurd hi (Nat.not_lt_zero i) }

/-! ### Instructions, requests and steps -/

variable {k l : Host.Outcome State Fault Refusal}

theorem Alike.whenConfigured (hcfg : s.cfg = t.cfg) (h : Alike k l) :
    Alike (whenConfigured s k) (whenConfigured t l) := by
  unfold Machine.whenConfigured
  rw [hcfg]
  split
  · exact h
  · exact .refused _

theorem Alike.whenReady (hcfg : s.cfg = t.cfg) (hready : s.ready = t.ready) (h : Alike k l) :
    Alike (whenReady s k) (whenReady t l) := by
  unfold Machine.whenReady
  rw [hready]
  refine .whenConfigured hcfg ?_
  split
  · exact h
  · exact .refused _

theorem Agree.execInit (h : Agree s t) (x : Word16) : Alike (execInit x s) (execInit x t) := by
  have hbusy : (s.ready && inFlight s) = (t.ready && inFlight t) := by
    rw [inFlight, inFlight, h.ready, h.cnt, h.idx]
  unfold Machine.execInit
  rw [hbusy]
  refine .whenConfigured h.cfg ?_
  split
  · split
    · exact .refused _
    · exact .next (h.startUp x)
  · exact .refused _

theorem Agree.execSubmit (h : Agree s t) (raw : Word16) : Alike (execSubmit raw s) (execSubmit raw t) := by
  unfold Machine.execSubmit
  rw [h.cfg]
  refine .whenReady h.cfg h.ready ?_
  split
  · exact .next (h.ingest raw)
  · exact .refused _

/-- CONSUME reads one entry, which is live where a sample is available. -/
theorem Agree.readSample (h : Agree s t) (havail : s.idx < s.cnt) : readSample s = readSample t := by
  unfold Machine.readSample
  rw [h.live s.idx le_rfl havail, h.idx, h.cfg]

/-- CONSUME with a sample available stops with the same fault, or leaves states that agree and the same code. -/
theorem Agree.consume (h : Agree s t) (havail : s.idx < s.cnt) :
    (∃ f, consume s = .error f ∧ consume t = .error f) ∨
    ∃ u v c, consume s = .ok (u, c) ∧ consume t = .ok (v, c) ∧ Agree u v := by
  have hread := h.readSample havail
  cases hs : Machine.readSample s with
  | error f => exact .inl ⟨f, consume_error.2 hs, consume_error.2 (hread ▸ hs)⟩
  | ok raw =>
    obtain ⟨hidx, hbuf⟩ := readSample_ok.1 hs
    obtain ⟨hidx', hbuf'⟩ := readSample_ok.1 (hread ▸ hs)
    have hnext := h.afterSample raw
    refine .inr ?_
    by_cases hlast : s.idx + 1 = s.cfg.blockSize
    · have hcode := congrArg some hnext.detectionCode
      exact ⟨_, _, _, consume_ok.2 ⟨raw, hidx, hbuf, .inr ⟨hlast, rfl, rfl⟩⟩,
        consume_ok.2 ⟨raw, hidx', hbuf', .inr ⟨h.idx ▸ h.cfg ▸ hlast, rfl, hcode⟩⟩, hnext.completed⟩
    · exact ⟨_, _, none, consume_ok.2 ⟨raw, hidx, hbuf, .inl ⟨hlast, rfl, rfl⟩⟩,
        consume_ok.2 ⟨raw, hidx', hbuf', .inl ⟨h.idx ▸ h.cfg ▸ hlast, rfl, rfl⟩⟩, hnext⟩

theorem Agree.execPoll (h : Agree s t) : Alike (execPoll s) (execPoll t) := by
  have hsame : avail s = avail t := by rw [avail, avail, h.idx, h.cnt]
  unfold Machine.execPoll
  rw [← hsame]
  refine .whenReady h.cfg h.ready ?_
  split
  · next havail =>
    rcases h.consume (of_decide_eq_true havail) with ⟨f, hs, ht⟩ | ⟨u, v, c, hs, ht, huv⟩
    · rw [hs, ht]
      exact .fault f
    · rw [hs, ht]
      cases c with
      | none => exact .next (huv.respond none)
      | some code => exact .next (huv.concludeBlock code)
  · exact .next (h.respond none)

theorem Agree.exec (h : Agree s t) (i : Instr) : Alike (exec i s) (exec i t) := by
  cases i with
  | nop => exact .whenConfigured h.cfg (.next h)
  | init x => exact h.execInit x
  | submit raw => exact h.execSubmit raw
  | poll => exact h.execPoll
  | _ => exact .whenReady h.cfg h.ready (.next (h.concludeBlock _))

theorem Agree.serve (h : Agree s t) (a : Agent) (w : Req) : Alike (serve a w s) (serve a w t) := by
  unfold Machine.serve issue
  rw [h.cfg]
  split
  · split
    · exact h.exec _
    · exact .refused _
  · exact .refused _

/-- The request served next is the same one, and what it leaves pending too. -/
theorem Agree.nextRequest (h : Agree s t) :
    (nextRequest s = none ∧ nextRequest t = none) ∨
    ∃ a w u v, nextRequest s = some (a, w, u) ∧ nextRequest t = some (a, w, v) ∧ Agree u v := by
  unfold Machine.nextRequest
  rw [← h.producer, ← h.consumer, ← h.unitId, ← h.turn]
  split
  · exact .inl ⟨rfl, rfl⟩
  · exact .inr ⟨_, _, _, _, rfl, rfl, h.setRequests _ _ _⟩
  · exact .inr ⟨_, _, _, _, rfl, rfl, h.setRequests _ _ _⟩
  · split
    · exact .inr ⟨_, _, _, _, rfl, rfl, h.setRequests _ _ _⟩
    · exact .inr ⟨_, _, _, _, rfl, rfl, h.setRequests _ _ _⟩

theorem Agree.step (h : Agree s t) : Alike (step s) (step t) := by
  unfold Machine.step serveNext
  rcases h.nextRequest with ⟨hs, ht⟩ | ⟨a, w, u, v, hs, ht, huv⟩
  · rw [hs, ht]
    exact .next h
  · rw [hs, ht]
    exact huv.serve a w

/-- Settles O41: the two steps have outcomes that are alike. -/
theorem deadEntriesAreNeverObserved : Obligations.DeadEntriesAreNeverObserved := by
  intro s t h
  have halike := h.step
  refine ⟨fun s' hs => ?next, fun r hs => ?refused, fun f hs => ?fault⟩
  all_goals
    rw [hs] at halike
    generalize step t = o at halike
    cases halike
  case next hnext => exact ⟨_, rfl, hnext⟩
  case refused => rfl
  case fault => rfl

/-- Settles O40: both INITs are admitted, and what they leave agrees. -/
theorem initForgetsUnspecifiedValues : Obligations.InitForgetsUnspecifiedValues := by
  intro s t x hrs hrt hcfg hproducer hconsumer hunit hturn hresponses hc hx
  exact ⟨_, _, exec_init_of_admitted hc hx (.inl hrs), exec_init_of_admitted (hcfg ▸ hc) hx (.inl hrt),
    agree_startUp hcfg hproducer hconsumer hunit hturn hresponses x⟩

end Sys2Proof.Safety

/-! # The Digit Decoder in every well-formed table (43_digit_decoder.md R135, R136; 30_encoding.md R79) -/

namespace Sys2Proof.Machine

variable {c : Config} {code : Code} {d : Symbol}

/-! ### DECODE and the entries of the table -/

/-- The clauses of R79 that DECODE rests on. -/
theorem dtab_of_configWf (h : configWf c = true) :
    c.lowMask &&& c.highMask = 0 ∧ c.lowMask ||| c.highMask = 0x7F#7 ∧ c.dtab.length = 12
      ∧ (∀ e ∈ c.dtab, oneLowOneHigh c.lowMask c.highMask e.1 = true) ∧ (c.dtab.map Prod.fst).Nodup := by
  simp only [configWf, dtabWf, Bool.and_eq_true, decide_eq_true_eq, beq_iff_eq, List.all_eq_true] at h
  obtain ⟨-, ⟨⟨⟨⟨⟨hdisjoint, hcover⟩, hlength⟩, hone⟩, hcodes⟩, -⟩, -⟩ := h
  exact ⟨hdisjoint, hcover, hlength, hone, hcodes⟩

theorem mem_dtab_of_decodeDigit (h : decodeDigit c code = some d) : (code, d) ∈ c.dtab := by
  rw [decodeDigit_eq_lookup, List.lookup_eq_some_iff] at h
  obtain ⟨before, after, htable, -⟩ := h
  rw [htable]
  exact List.mem_append_right _ List.mem_cons_self

theorem decodeDigit_eq_none_iff : decodeDigit c code = none ↔ ∀ d, (code, d) ∉ c.dtab := by
  rw [decodeDigit_eq_lookup, List.lookup_eq_none_iff]
  constructor
  · intro h d hmem
    simpa using h _ hmem
  · rintro h ⟨k, d⟩ hmem
    exact bne_iff_ne.2 fun hk => h d (hk ▸ hmem)

/-- The codes of a well-formed table are distinct, so the first entry that matches is the only one. -/
theorem decodeDigit_eq_some_iff (hc : configWf c = true) : decodeDigit c code = some d ↔ (code, d) ∈ c.dtab := by
  refine ⟨mem_dtab_of_decodeDigit, fun hmem => ?_⟩
  obtain ⟨-, -, -, -, hcodes⟩ := dtab_of_configWf hc
  cases hd : decodeDigit c code with
  | none => exact absurd hmem (decodeDigit_eq_none_iff.1 hd d)
  | some d' =>
    have hentry := List.inj_on_of_nodup_map hcodes (mem_dtab_of_decodeDigit hd) hmem rfl
    rw [(Prod.mk.inj hentry).2]

/-! ### A well-formed table lists every code with one low and one high bit -/

theorem oneLowOneHigh_iff {low high : Code} :
    oneLowOneHigh low high code = true ↔ popcount (code &&& low) = 1 ∧ popcount (code &&& high) = 1 := by
  simp [oneLowOneHigh]

/-- The code with bit `k` alone. -/
def bitCode (k : Fin 7) : Code := BitVec.twoPow 7 k

theorem eq_bitCode_of_popcount : ∀ {x : Code}, popcount x = 1 → ∃ k, x = bitCode k := by
  decide

/-- The bits of a mask. -/
def maskBits (mask : Code) : Finset (Fin 7) := Finset.univ.filter fun k => mask.getLsbD k = true

theorem exists_bit_of_popcount {mask : Code} (h : popcount (code &&& mask) = 1) :
    ∃ k ∈ maskBits mask, code &&& mask = bitCode k := by
  obtain ⟨k, hk⟩ := eq_bitCode_of_popcount h
  have hbit : (code &&& mask).getLsbD k = true := by simp [hk, bitCode]
  rw [BitVec.getLsbD_and, Bool.and_eq_true] at hbit
  exact ⟨k, Finset.mem_filter.2 ⟨Finset.mem_univ k, hbit.2⟩, hk⟩

/-- The codes with exactly one bit in each of two masks. -/
def twoToneCodes (low high : Code) : Finset Code := Finset.univ.filter fun x => oneLowOneHigh low high x = true

/-- Masks that split the seven bits allow at most twelve such codes, `3 * 4` being the largest product. -/
theorem card_twoToneCodes_le {low high : Code} (hdisjoint : low &&& high = 0)
    (hcover : low ||| high = BitVec.allOnes 7) :
    (twoToneCodes low high).card ≤ 12 := by
  have hhigh : maskBits high = Finset.univ.filter fun k : Fin 7 => ¬ low.getLsbD k = true := by
    have hother : ∀ l h : Bool, (l && h) = false → (l || h) = true → (h = true ↔ ¬ l = true) := by decide
    refine Finset.filter_congr fun k _ => hother _ _ ?_ ?_
    · rw [← BitVec.getLsbD_and, hdisjoint, BitVec.ofNat_eq_ofNat, BitVec.getLsbD_zero]
    · rw [← BitVec.getLsbD_or, hcover, BitVec.getLsbD_allOnes, decide_eq_true k.isLt]
  have hsum : (maskBits low).card + (maskBits high).card = 7 := by
    rw [hhigh, maskBits, Finset.card_filter_add_card_filter_not]
    rfl
  have hsub : twoToneCodes low high ⊆
      (maskBits low ×ˢ maskBits high).image fun p => bitCode p.1 ||| bitCode p.2 := by
    intro x hx
    obtain ⟨hlow, hhigh⟩ := oneLowOneHigh_iff.1 (Finset.mem_filter.1 hx).2
    obtain ⟨i, hi, hxi⟩ := exists_bit_of_popcount hlow
    obtain ⟨j, hj, hxj⟩ := exists_bit_of_popcount hhigh
    refine Finset.mem_image.2 ⟨(i, j), Finset.mem_product.2 ⟨hi, hj⟩, ?_⟩
    rw [← hxi, ← hxj, ← BitVec.and_or_distrib_left, hcover, BitVec.and_allOnes]
  have hcard := (Finset.card_le_card hsub).trans Finset.card_image_le
  rw [Finset.card_product] at hcard
  have hproduct : (maskBits low).card * (maskBits high).card ≤ 12 := by
    have hle : (maskBits low).card ≤ 7 := by omega
    have hrest : (maskBits high).card = 7 - (maskBits low).card := by omega
    rw [hrest]
    interval_cases (maskBits low).card <;> norm_num
  exact hcard.trans hproduct

/-- The codes of a well-formed table, twelve of them, are all the codes with one low and one high bit. -/
theorem dtab_codes (hc : configWf c = true) :
    (c.dtab.map Prod.fst).toFinset = twoToneCodes c.lowMask c.highMask := by
  obtain ⟨hdisjoint, hcover, hlength, hone, hcodes⟩ := dtab_of_configWf hc
  refine Finset.eq_of_subset_of_card_le (fun k hk => ?_) ?_
  · obtain ⟨e, he, rfl⟩ := List.mem_map.1 (List.mem_toFinset.1 hk)
    exact Finset.mem_filter.2 ⟨Finset.mem_univ _, hone e he⟩
  · rw [List.toFinset_card_of_nodup hcodes, List.length_map, hlength]
    exact card_twoToneCodes_le hdisjoint hcover

/-- R136's equivalent form. -/
theorem decodeDigit_isSome_iff (hc : configWf c = true) :
    (decodeDigit c code).isSome = true ↔ popcount (code &&& c.lowMask) = 1 ∧ popcount (code &&& c.highMask) = 1 := by
  have hcodes : code ∈ (c.dtab.map Prod.fst).toFinset ↔ code ∈ twoToneCodes c.lowMask c.highMask := by
    rw [dtab_codes hc]
  rw [Option.isSome_iff_exists, ← oneLowOneHigh_iff]
  simpa [twoToneCodes, decodeDigit_eq_some_iff hc] using hcodes

/-- The code of no tones decodes to no digit. -/
theorem decodeDigit_zero (hc : configWf c = true) : decodeDigit c 0 = none := by
  rw [← Option.not_isSome_iff_eq_none, decodeDigit_isSome_iff hc]
  simp [popcount]

/-- Settles O49. -/
theorem decodeIsExactMatch : Obligations.DecodeIsExactMatch := fun _ _ hc =>
  ⟨fun _ => decodeDigit_eq_some_iff hc, decodeDigit_eq_none_iff, decodeDigit_isSome_iff hc⟩

end Sys2Proof.Machine

/-! # The end of a block: DECODE, DEBOUNCE and the response (44_debounce_latch.md, 45_host_operations.md) -/

namespace Sys2Proof.Machine

variable {s t : State} {c : Code} {d : Symbol} {i : Instr} {raw : Word16}

/-- At the end of a block `LATCH` is the decoded digit, which is the response unless `LATCH` held it (R146, R158). -/
theorem concludeBlock_eq_ite (code : Code) (s : State) :
    concludeBlock code s =
      { s with
        latch := decodeDigit s.cfg code
        responses := s.responses ++
          [if decodeDigit s.cfg code = s.latch then 0x00 else rspWord (decodeDigit s.cfg code)] } := by
  rw [concludeBlock_eq, rspWord_debounce]

theorem concludeBlock_of_held (hd : decodeDigit s.cfg c = some d) (hl : s.latch = some d) :
    concludeBlock c s = { s with responses := s.responses ++ [0x00] } := by
  rw [concludeBlock_eq_ite, hd, ← hl, if_pos rfl]

theorem concludeBlock_of_new (hd : decodeDigit s.cfg c = some d) (hl : s.latch ≠ some d) :
    concludeBlock c s = { s with latch := some d, responses := s.responses ++ [symbolCode d] } := by
  rw [concludeBlock_eq_ite, hd, if_neg hl.symm]
  rfl

theorem concludeBlock_of_unlisted (hd : decodeDigit s.cfg c = none) :
    concludeBlock c s = { s with latch := none, responses := s.responses ++ [0x00] } := by
  rw [concludeBlock_eq_ite, hd]
  split <;> rfl

/-- Settles O26, one code at a time from any state: each leaves its DECODE result in `LATCH` for the next. -/
theorem eventsAtChangesOfTheDecodedDigit : Obligations.EventsAtChangesOfTheDecodedDigit := by
  intro codes
  induction codes with
  | nil => simp
  | cons code codes ih =>
    intro s
    rw [List.foldl_cons, ih, concludeBlock_eq_ite]
    simp

/-- Settles O19: the row's code goes through DECODE, and DEBOUNCE compares the result with `LATCH`. -/
theorem digitRowsDecodeAndDebounce : Obligations.DigitRowsDecodeAndDebounce := by
  intro i c s hcode hc
  rw [exec_of_code hcode]
  refine ⟨?held, ?new, ?unlisted, fun hr => whenReady_of_not_ready hc hr⟩
  case held =>
    intro hr d hmem hl
    rw [runCode_next.2 ⟨hc, hr, rfl⟩, concludeBlock_of_held ((decodeDigit_eq_some_iff hc).2 hmem) hl]
  case new =>
    intro hr d hmem hl
    rw [runCode_next.2 ⟨hc, hr, rfl⟩, concludeBlock_of_new ((decodeDigit_eq_some_iff hc).2 hmem) hl]
    rfl
  case unlisted =>
    intro hr hmem
    rw [runCode_next.2 ⟨hc, hr, rfl⟩, concludeBlock_of_unlisted (decodeDigit_eq_none_iff.2 hmem)]

@[simp] theorem filterSample_responses (raw : Word16) (s : State) : (filterSample raw s).responses = s.responses := rfl

/-- Settles O25: a POLL inside a block or without a sample responds `none`; at a block's end the response is an event
exactly where the decoded digit is a symbol that `LATCH` did not hold. -/
theorem eventsOnlyAtBlockEnds : Obligations.EventsOnlyAtBlockEnds := by
  intro s t r h hr hne
  rcases exec_poll_next_cases h with ⟨-, rfl⟩ | ⟨-, -, raw, -, rfl⟩ | ⟨havail, hlast, raw, -, rfl⟩
  · exact absurd (by simpa [rspWord] using hr.symm) hne
  · exact absurd (by simpa [rspWord] using hr.symm) hne
  · refine ⟨havail, hlast, ?_⟩
    rw [Safety.concludeBlock_completed] at hr ⊢
    generalize decodeDigit s.cfg _ = dg at hr ⊢
    obtain rfl : (if dg = s.latch then 0x00 else rspWord dg) = r := by simpa [Safety.blockReported] using hr
    split at hne
    · exact absurd rfl hne
    · next hnew =>
      cases dg with
      | none => exact absurd rfl hne
      | some d => exact ⟨d, rfl, Ne.symm hnew, if_neg hnew⟩

/-! ### Responses and writers, instruction by instruction (10_state.md R20, 30_encoding.md R75) -/

/-- A POLL that completes gives one response. -/
theorem exec_poll_responses (h : exec .poll s = .next t) : ∃ ev, t.responses = s.responses ++ [rspWord ev] := by
  rcases exec_poll_next_cases h with ⟨-, rfl⟩ | ⟨-, -, raw, -, rfl⟩ | ⟨-, -, raw, -, rfl⟩
  · exact ⟨none, State.respond_responses s none⟩
  · exact ⟨none, State.respond_responses (afterSample raw s) none⟩
  · exact ⟨_, concludeBlock_responses _ _⟩

theorem exec_submit_responses (h : exec (.submit raw) s = .next t) : t.responses = s.responses := by
  obtain ⟨-, -, -, rfl⟩ := execSubmit_next.1 h
  by_cases hroom : s.cnt < s.cfg.blockSize
  · rw [ingest_room hroom]
  · rw [ingest_full hroom]

/-- Settles O24, one instruction at a time. -/
theorem onlyPollsRespond : Obligations.OnlyPollsRespond := by
  intro i s t h
  constructor
  · rintro (rfl | ⟨x, rfl⟩ | ⟨raw, rfl⟩)
    · obtain ⟨-, rfl⟩ := execNop_next.1 h
      rfl
    · obtain ⟨-, -, -, rfl⟩ := execInit_next.1 h
      exact startUp_responses x s
    · exact exec_submit_responses h
  · rintro rfl
    exact exec_poll_responses h

/-- Settles O23, one case of what an instruction can do at a time; the one write of the buffer is at `CNT`. -/
theorem everyElementHasItsWriters : Obligations.EveryElementHasItsWriters := by
  intro i s t h
  obtain ⟨-, hcases⟩ := exec_next_cases h
  rcases hcases with ⟨-, rfl⟩ | ⟨x, rfl, -, -, rfl⟩ | ⟨-, raw, rfl, -, hroom, rfl⟩ | ⟨-, raw, -, -, -, rfl⟩
    | ⟨-, -, -, rfl⟩ | ⟨-, rfl, havail, raw, -, -, -, rfl⟩ | ⟨-, rfl, havail, raw, -, hlast, rfl⟩ | ⟨-, c, hcode, rfl⟩
  · simp
  · simp [startUp_eq]
  · refine ⟨rfl, by simp, fun a ha => ⟨raw, rfl, ?_, hroom⟩, by simp⟩
    by_contra hne
    exact ha (Memory.read_write_other _ _ (Ne.symm hne))
  · simp
  · simp
  · simp [filterSample, havail]
  · simp [Safety.concludeBlock_completed, Safety.blockReported, havail, hlast]
  · simp [concludeBlock_eq, hcode]

end Sys2Proof.Machine

/-! # One step and a run of steps (20_memory.md R57, R64; 60_exceptions.md R182, R184) -/

namespace Sys2Proof.Machine

variable {s t u : State} {a : Agent} {v w : Req} {ps cs : List Req} {i : Instr} {raw : Word16}

/-! ### The request a step serves -/

theorem nextRequest_of_producer_alone (hp : s.producer = w :: ps) (hc : s.consumer = []) :
    nextRequest s = some (.producer, w, { s with producer := ps }) := by
  rw [nextRequest, hp, hc]
  rfl

theorem nextRequest_of_consumer_alone (hp : s.producer = []) (hc : s.consumer = w :: cs) :
    nextRequest s = some (.consumer, w, { s with consumer := cs }) := by
  rw [nextRequest, hp, hc]
  rfl

theorem nextRequest_of_both (hp : s.producer = v :: ps) (hc : s.consumer = w :: cs) :
    nextRequest s =
      if Config.producerFirst s.unitId s.turn then some (.producer, v, { s with producer := ps, turn := s.turn + 1 })
      else some (.consumer, w, { s with consumer := cs, turn := s.turn + 1 }) := by
  rw [nextRequest, hp, hc]
  rfl

theorem step_of_nextRequest (h : nextRequest s = some (a, w, u)) : step s = serve a w u := by
  rw [step, serveNext, h]

theorem step_of_idle (hp : s.producer = []) (hc : s.consumer = []) : step s = .next s := by
  rw [step, serveNext, nextRequest_none.2 ⟨hp, hc⟩]

/-- A request of the Consumer alone that decodes to an operation of its is run on the state without it. -/
theorem step_of_consumer_alone (hp : s.producer = []) (hc : s.consumer = w :: cs)
    (hdecode : decodeRequest s.cfg.sampleW w = .ok i) (hagent : permitted .consumer i = true) :
    step s = exec i { s with consumer := cs } :=
  (step_of_nextRequest (nextRequest_of_consumer_alone hp hc)).trans (serve_of hdecode hagent)

/-- Settles O6, one agent at a time. -/
theorem stepRunsTheOnlyRequest : Obligations.StepRunsTheOnlyRequest := fun _ _ _ hdecode =>
  ⟨fun _ hp hc hagent => (step_of_nextRequest (nextRequest_of_producer_alone hp hc)).trans (serve_of hdecode hagent),
    fun _ hp hc hagent => step_of_consumer_alone hp hc hdecode hagent⟩

/-- Settles O7: the free value is what the choice of the next request turns on. -/
theorem coincidentRequestsInEitherOrder : Obligations.CoincidentRequestsInEitherOrder := by
  intro s v w ps cs hp hc
  have hnext := nextRequest_of_both hp hc
  split
  · next hfirst => exact step_of_nextRequest (by rw [hnext, if_pos hfirst])
  · next hfirst => exact step_of_nextRequest (by rw [hnext, if_neg hfirst])

/-- Settles O8. -/
theorem idleStepHoldsTheState : Obligations.IdleStepHoldsTheState := fun _ => step_of_idle

/-! ### The POLLs of a step (R158) -/

/-- The word of POLL decodes to it at every `SAMPLE_W`. -/
theorem decodeRequest_poll (n : Nat) : decodeRequest n 0x30000 = .ok .poll :=
  decodeRequest_ok.2 (.inr (.inr (.inr ⟨rfl, rfl, rfl⟩)))

/-- Settles O16. -/
theorem pollWithoutASample : Obligations.PollWithoutASample :=
  ⟨rfl, rfl, fun _ hc hr hidle => Safety.exec_poll_of_idle hc hr hidle⟩

/-- Settles O17: the sample goes through the bank, whose product is the statement's with its factors exchanged. -/
theorem pollTakesOneSample : Obligations.PollTakesOneSample := by
  intro s raw hc hr havail hidx hmore hread
  rw [Safety.exec_poll_of_sample hc hr havail (by omega) hread, afterSample, filterSample_advance]
  simp only [mul_comm (s.cfg.coeff.get _).toInt]
  rfl

/-- Settles O9: the step is the POLL of the block's last sample, which ends in `concludeBlock` of the block's code; so
is the row of that code. -/
theorem stepRunsAPresentedCode : Obligations.StepRunsAPresentedCode := by
  intro s raw cs hp hq hc hr havail hlast hread c u
  have hstep : step s = .next (concludeBlock c u) := by
    rw [step_of_consumer_alone hp hq (decodeRequest_poll _) rfl]
    have hpoll := Safety.exec_poll_of_last_sample (s := { s with consumer := cs }) hc hr havail hlast hread
    rwa [← Safety.concludeBlock_completed _ raw] at hpoll
  rw [hstep]
  refine ⟨fun i hrow => ?row, fun d hmem hl => ?held, fun d hmem hl => ?new, fun hmem => ?unlisted⟩
  case row =>
    have hrun : runCode c u = .next (concludeBlock c u) := runCode_next.2 ⟨hc, hr, rfl⟩
    rw [exec_of_code (decodeCode_ok.1 hrow), hrun]
  case held => rw [concludeBlock_of_held (s := u) ((decodeDigit_eq_some_iff hc).2 hmem) hl]
  case new => rw [concludeBlock_of_new (s := u) ((decodeDigit_eq_some_iff hc).2 hmem) hl]
  case unlisted => rw [concludeBlock_of_unlisted (s := u) (decodeDigit_eq_none_iff.2 hmem)]

/-! ### What a step can change -/

/-- An instruction leaves the pending requests, and the arbitration's arguments, as they are. -/
theorem exec_keeps_requests (h : exec i s = .next t) :
    t.producer = s.producer ∧ t.consumer = s.consumer ∧ t.unitId = s.unitId ∧ t.turn = s.turn := by
  obtain ⟨-, -, -, -, -, -, -, -, hrequests⟩ := everyElementHasItsWriters i s t h
  exact hrequests

theorem not_permitted_of_code {c : Code} (h : encode i = .code c) : permitted a i = false := by
  cases i with
  | nop | init _ | submit _ | poll => cases h
  | _ => cases a <;> rfl

/-- An instruction changes `LATCH` only as an INIT, as the POLL of a block's last sample, or as a Detection Code. -/
theorem exec_latch_writers (h : exec i s = .next t) (hne : t.latch ≠ s.latch) :
    (∃ x, i = .init x) ∨ (i = .poll ∧ s.idx < s.cnt ∧ s.idx + 1 = s.cfg.blockSize) ∨ ∃ c, encode i = .code c := by
  obtain ⟨-, -, -, -, -, -, hlatch, -⟩ := everyElementHasItsWriters i s t h
  exact hlatch hne

/-- A step that answers a next state holds the state, or runs the operation of one agent's oldest request, and takes
that request alone from the queues. -/
theorem step_next_served (h : step s = .next t) :
    t = s ∨ ∃ a w i ps cs n, decodeRequest s.cfg.sampleW w = .ok i ∧ permitted a i = true
      ∧ exec i (s.setRequests ps cs n) = .next t
      ∧ ((a = .producer ∧ s.producer = w :: t.producer ∧ s.consumer = t.consumer) ∨
         (a = .consumer ∧ s.producer = t.producer ∧ s.consumer = w :: t.consumer)) := by
  rcases step_eq s with ⟨-, -, hidle⟩ | ⟨a, w, u, hreq, hserve⟩
  · exact .inl (by simpa [hidle] using h.symm)
  · obtain ⟨ps, cs, n, rfl, hqueues⟩ := nextRequest_some hreq
    obtain ⟨i, hdecode, hagent, hexec⟩ := serve_next.1 (hserve.symm.trans h)
    obtain ⟨hp, hc, -, -⟩ := exec_keeps_requests hexec
    obtain rfl : t.producer = ps := hp
    obtain rfl : t.consumer = cs := hc
    exact .inr ⟨a, w, i, _, _, n, hdecode, hagent, hexec, hqueues⟩

/-- The Producer's one operation is SUBMIT (R71). -/
theorem eq_submit_of_permitted (h : permitted .producer i = true) : ∃ raw, i = .submit raw := by
  cases i with
  | submit raw => exact ⟨raw, rfl⟩
  | _ => cases h

/-- The Consumer's operations with their words (R70 to R74). -/
theorem consumer_operation {n : Nat} (hdecode : decodeRequest n w = .ok i) (hagent : permitted .consumer i = true) :
    i = .nop ∨ (w.toNat / 2 ^ 16 = 1 ∧ ∃ x, i = .init x) ∨ (w = 0x30000 ∧ i = .poll) := by
  rcases Safety.decodeRequest_ok_fields.1 hdecode with ⟨-, -, rfl⟩ | ⟨hop, rfl⟩ | ⟨-, -, rfl⟩ | ⟨-, -, rfl⟩
  · exact .inl rfl
  · exact .inr (.inl ⟨hop, _, rfl⟩)
  · cases hagent
  · exact .inr (.inr ⟨(InstrWord.req.inj (encode_of_decodeRequest hdecode)).symm, rfl⟩)

/-- A step that changes `LATCH` served an INIT, or the POLL of a block's last sample, of the Consumer. -/
theorem step_latch_writers (h : step s = .next t) (hne : t.latch ≠ s.latch) :
    ∃ w, s.consumer = w :: t.consumer ∧ s.producer = t.producer
      ∧ (w.toNat / 2 ^ 16 = 1 ∨ (w = 0x30000 ∧ s.idx < s.cnt ∧ s.idx + 1 = s.cfg.blockSize)) := by
  rcases step_next_served h with rfl | ⟨a, w, i, ps, cs, n, hdecode, hagent, hexec, hqueues⟩
  · exact absurd rfl hne
  · rcases hqueues with ⟨rfl, -, -⟩ | ⟨rfl, hp, hc⟩
    · obtain ⟨raw, rfl⟩ := eq_submit_of_permitted hagent
      rcases exec_latch_writers hexec hne with ⟨x, hi⟩ | ⟨hi, -⟩ | ⟨c, hi⟩
      · cases hi
      · cases hi
      · cases hi
    · refine ⟨w, hc, hp, ?_⟩
      rcases consumer_operation hdecode hagent with rfl | ⟨hop, -⟩ | ⟨hw, rfl⟩
      · obtain ⟨-, rfl⟩ := execNop_next.1 hexec
        exact absurd rfl hne
      · exact .inl hop
      · rcases exec_latch_writers hexec hne with ⟨x, hi⟩ | ⟨-, havail, hlast⟩ | ⟨c, hi⟩
        · cases hi
        · exact .inr ⟨hw, havail, hlast⟩
        · cases hi

/-- A step responds, with one word, only as it serves a POLL of the Consumer. -/
theorem step_responders (h : step s = .next t) :
    t.responses = s.responses
      ∨ (s.consumer = 0x30000 :: t.consumer ∧ s.producer = t.producer ∧ ∃ r, t.responses = s.responses ++ [r]) := by
  rcases step_next_served h with rfl | ⟨a, w, i, ps, cs, n, hdecode, hagent, hexec, hqueues⟩
  · exact .inl rfl
  · obtain ⟨hsilent, hpoll⟩ := onlyPollsRespond i _ t hexec
    rcases hqueues with ⟨rfl, -, -⟩ | ⟨rfl, hp, hc⟩
    · exact .inl (hsilent (.inr (.inr (eq_submit_of_permitted hagent))))
    · rcases consumer_operation hdecode hagent with hnop | ⟨-, hinit⟩ | ⟨rfl, hi⟩
      · exact .inl (hsilent (.inl hnop))
      · exact .inl (hsilent (.inr (.inl hinit)))
      · obtain ⟨ev, hev⟩ := hpoll hi
        exact .inr ⟨hc, hp, _, hev⟩

/-- Settles O10: a request word is the word of its instruction, so none is a Detection Code. -/
theorem decodeAndDebounceRunOnlyInsidePoll : Obligations.DecodeAndDebounceRunOnlyInsidePoll := by
  refine ⟨fun n w i c hdecode hcode => ?_, fun a i c => not_permitted_of_code,
    fun s t h => ⟨step_latch_writers h, step_responders h⟩⟩
  cases (encode_of_decodeRequest hdecode).symm.trans hcode

/-! ### A run of steps is a merge of the queues -/

/-- The queues and the arbitration's counter play no part in an instruction, and it passes them on. -/
theorem exec_setRequests (h : exec i s = .next t) (ps cs : List Req) (n : Nat) :
    exec i (s.setRequests ps cs n) = .next (t.setRequests ps cs n) := by
  obtain ⟨hc, hcases⟩ := exec_next_cases h
  rcases hcases with ⟨rfl, rfl⟩ | ⟨x, rfl, hx, hadmit, rfl⟩ | ⟨hr, raw, rfl, hfits, hroom, rfl⟩
    | ⟨hr, raw, rfl, hfits, hfull, rfl⟩ | ⟨hr, rfl, hidle, rfl⟩ | ⟨hr, rfl, havail, raw, hidx, hread, hmore, rfl⟩
    | ⟨hr, rfl, havail, raw, hread, hlast, rfl⟩ | ⟨hr, c, hcode, rfl⟩
  · exact execNop_next.2 ⟨hc, rfl⟩
  · exact execInit_next.2 ⟨hc, hx, hadmit, rfl⟩
  · exact execSubmit_next.2 ⟨hc, hr, hfits, (ingest_room (s := s.setRequests ps cs n) hroom).symm⟩
  · have hdrop : ingest raw (t.setRequests ps cs n) = t.setRequests ps cs n := ingest_full hfull
    exact execSubmit_next.2 ⟨hc, hr, hfits, hdrop.symm⟩
  · exact Safety.exec_poll_of_idle (s := s.setRequests ps cs n) hc hr hidle
  · have hinside : s.idx + 1 < s.cfg.blockSize := by omega
    exact Safety.exec_poll_of_sample (s := s.setRequests ps cs n) hc hr havail hinside hread
  · rw [Safety.concludeBlock_completed]
    exact Safety.exec_poll_of_last_sample (s := s.setRequests ps cs n) hc hr havail hlast hread
  · exact (exec_of_code hcode _).trans (runCode_next.2 ⟨hc, hr, rfl⟩)

theorem serve_setRequests (h : serve a w s = .next t) (ps cs : List Req) (n : Nat) :
    serve a w (s.setRequests ps cs n) = .next (t.setRequests ps cs n) := by
  obtain ⟨i, hdecode, hagent, hexec⟩ := serve_next.1 h
  exact serve_next.2 ⟨i, hdecode, hagent, exec_setRequests hexec ps cs n⟩

theorem serveAll_cons (h : serve a w s = .next t) (ws : List (Agent × Req)) :
    serveAll ((a, w) :: ws) s = serveAll ws t := by
  rw [serveAll, h]

theorem wordsOf_cons_same (a : Agent) (w : Req) (ws : List (Agent × Req)) :
    Safety.wordsOf a ((a, w) :: ws) = w :: Safety.wordsOf a ws := by
  simp [Safety.wordsOf]

theorem wordsOf_cons_other {b : Agent} (h : a ≠ b) (w : Req) (ws : List (Agent × Req)) :
    Safety.wordsOf b ((a, w) :: ws) = Safety.wordsOf b ws := by
  simp [Safety.wordsOf, h]

/-- A run of one step more is a step and the run after it. -/
theorem run_succ {M : Host.Core} {n : Nat} {s t : M.State} (h : M.run (n + 1) s = .next t) :
    ∃ u, M.step s = .next u ∧ M.run n u = .next t := by
  unfold Host.Core.run at h
  cases hs : M.step s with
  | next u => exact ⟨u, rfl, by simpa only [hs] using h⟩
  | fault f => simp [hs] at h
  | refused r => simp [hs] at h

/-- Settles O28, by induction on the number of steps: the first step serves the first request of the order, or none. -/
theorem runsAreMergesOfTheAgentsRequests : Obligations.RunsAreMergesOfTheAgentsRequests := by
  intro n
  induction n with
  | zero =>
    rintro s t h
    cases h
    exact ⟨[], rfl, rfl, rfl⟩
  | succ n ih =>
    intro s t h
    obtain ⟨u, hstep, hrun⟩ := run_succ h
    obtain ⟨ws, hproducer, hconsumer, hserve⟩ := ih u t hrun
    rcases step_next_served hstep with rfl | ⟨a, w, i, ps, cs, m, hdecode, hagent, hexec, hqueues⟩
    · exact ⟨ws, hproducer, hconsumer, hserve⟩
    · have hfirst : serve a w (Safety.bare s) = .next (Safety.bare u) :=
        serve_setRequests (s := s.setRequests ps cs m) (serve_next.2 ⟨i, hdecode, hagent, hexec⟩) [] [] 0
      refine ⟨(a, w) :: ws, ?_, ?_, (serveAll_cons hfirst ws).trans hserve⟩
      all_goals rcases hqueues with ⟨rfl, hp, hc⟩ | ⟨rfl, hp, hc⟩
      · rw [wordsOf_cons_same, List.cons_append, hproducer, hp]
      · rw [wordsOf_cons_other (by decide), hproducer, hp]
      · rw [wordsOf_cons_other (by decide), hconsumer, hc]
      · rw [wordsOf_cons_same, List.cons_append, hconsumer, hc]

/-! ### Several blocks (R184) -/

/-- One step of a block that runs; one that has stopped stays as it is. -/
def stepOutcome : Host.Outcome State Fault Refusal → Host.Outcome State Fault Refusal
  | .next s => step s
  | .fault f => .fault f
  | .refused r => .refused r

/-- Stepping the `n`-th block is a change of the `n`-th entry alone. -/
theorem stepInstance_eq_modify (n : Nat) (ms : Instances) : stepInstance n ms = ms.modify n stepOutcome := by
  refine List.ext_getElem? fun m => ?_
  rw [List.getElem?_modify]
  unfold stepInstance
  by_cases hm : n = m
  · subst hm
    cases hn : ms[n]? with
    | none => simp [hn]
    | some o =>
      cases o with
      | next s => simp [stepOutcome, (List.getElem?_eq_some_iff.1 hn).1]
      | fault f => simp [stepOutcome, hn]
      | refused r => simp [stepOutcome, hn]
  · have hset (o : Host.Outcome State Fault Refusal) : (ms.set n o)[m]? = ms[m]? := List.getElem?_set_ne hm
    simp only [hm, if_false]
    split <;> simp [hset]

/-- No step writes the index of its block. -/
theorem step_keeps_unitId (h : step s = .next t) : t.unitId = s.unitId := by
  rcases step_next_cases h with rfl | ⟨i, ps, cs, n, hexec⟩
  · rfl
  · obtain ⟨-, -, hunit, -⟩ := exec_keeps_requests hexec
    exact hunit

/-- Settles O43: changes of two entries of a list commute. -/
theorem instancesAreIndependent : Obligations.InstancesAreIndependent := by
  refine ⟨fun n ms => ?step, fun cs n c hc => ?reset, fun s t => step_keeps_unitId⟩
  case step =>
    simp only [stepInstance_eq_modify]
    refine ⟨List.length_modify _ _ _, fun m hm => ?_, fun s hs => ?_, fun m hm =>
      List.modify_modify_ne _ _ _ hm.symm⟩
    · simp [hm.symm]
    · simp [hs, stepOutcome]
  case reset => simp [Instances.reset, List.getElem?_mapIdx, hc]

end Sys2Proof.Machine

/-! # Counters, schedules and the order of requests (10_state.md R8, 20_memory.md R64, 40_sample_ingestion.md R93) -/

namespace Sys2Proof.Safety

open Sys2Proof.Machine

variable {s t : State} {raw sample : Word16} {raws : List Word16} {B : Nat}

/-! ### The counters' width (R8, R23) -/

theorem blockSize_lt_two_pow_cntW (c : Config) : c.blockSize < 2 ^ cntW c := Nat.lt_log2_self

theorem cntW_le {c : Config} {n : Nat} (hpos : 1 ≤ c.blockSize) (h : c.blockSize < 2 ^ n) : cntW c ≤ n :=
  Nat.succ_le_of_lt ((Nat.log2_lt (by omega)).2 h)

/-- Settles O34: under the invariant neither counter exceeds `BLOCK_SIZE`, which the width holds. -/
theorem countersFitTheirWidth : Obligations.CountersFitTheirWidth := by
  refine ⟨fun c => ⟨blockSize_lt_two_pow_cntW c, fun n h hpos => cntW_le hpos h⟩, fun s hi hr => ?_⟩
  obtain ⟨hidx, hcnt, -⟩ := hi.counters hr
  have hwidth := blockSize_lt_two_pow_cntW s.cfg
  constructor <;> omega

/-! ### The two orders of a SUBMIT and a POLL (R64) -/

theorem runListing_singleton (l : Line) (s : State) : runListing [l] s = issue l.1 l.2 s := by
  unfold runListing
  cases issue l.1 l.2 s <;> rfl

theorem runListing_submit_poll (h : exec (.submit raw) s = .next t) :
    runListing [(.producer, .submit raw), (.consumer, .poll)] s = exec .poll t :=
  (runListing_cons (.producer, .submit raw) _ s h).trans (runListing_singleton _ t)

theorem runListing_poll_submit (h : exec .poll s = .next t) :
    runListing [(.consumer, .poll), (.producer, .submit raw)] s = exec (.submit raw) t :=
  (runListing_cons (.consumer, .poll) _ s h).trans (runListing_singleton _ t)

/-- SUBMIT touches neither the sample a POLL is about to take nor the registers. -/
theorem read_ingest (havail : s.idx < s.cnt) : Memory.read (ingest raw s).buf s.idx = Memory.read s.buf s.idx := by
  by_cases hroom : s.cnt < s.cfg.blockSize
  · rw [ingest_room hroom]
    exact Memory.read_write_other _ _ havail.ne'
  · rw [ingest_full hroom]

theorem ingest_respond_afterSample :
    ingest raw ((afterSample sample s).respond none) = (afterSample sample (ingest raw s)).respond none := by
  by_cases hroom : s.cnt < s.cfg.blockSize
  · rw [ingest_room hroom, ingest_room (s := (afterSample sample s).respond none) hroom]
    rfl
  · rw [ingest_full hroom, ingest_full (s := (afterSample sample s).respond none) hroom]

theorem ingest_cfg : (ingest raw s).cfg = s.cfg := by
  unfold ingest; split <;> rfl

theorem ingest_ready : (ingest raw s).ready = s.ready := by
  unfold ingest; split <;> rfl

theorem ingest_idx : (ingest raw s).idx = s.idx := by
  unfold ingest; split <;> rfl

theorem le_ingest_cnt : s.cnt ≤ (ingest raw s).cnt := by
  unfold ingest
  split
  · exact Nat.le_succ _
  · exact le_rfl

/-- A SUBMIT and a POLL inside a block commute where a sample already waits. -/
theorem runListing_commute (hi : Inv s) (hr : s.ready = true) (hraw : raw.toNat < 2 ^ s.cfg.sampleW)
    (havail : s.idx < s.cnt) (hinside : s.idx + 1 < s.cfg.blockSize) :
    runListing [(.producer, .submit raw), (.consumer, .poll)] s
      = runListing [(.consumer, .poll), (.producer, .submit raw)] s := by
  obtain ⟨sample, hread⟩ := Option.isSome_iff_exists.1 (hi.accepted hr s.idx havail)
  have hsubmit : exec (.submit raw) s = .next (ingest raw s) := exec_submit_of_legal hi.config hr hraw
  have hpoll : exec .poll s = .next ((afterSample sample s).respond none) :=
    exec_poll_of_sample hi.config hr havail hinside hread
  have hpoll' : exec .poll (ingest raw s) = .next ((afterSample sample (ingest raw s)).respond none) :=
    exec_poll_of_sample (by rw [ingest_cfg]; exact hi.config) (ingest_ready.trans hr)
      (by rw [ingest_idx]; exact havail.trans_le le_ingest_cnt) (by rwa [ingest_idx, ingest_cfg])
      (by rw [ingest_idx, read_ingest havail, hread])
  have hsubmit' : exec (.submit raw) ((afterSample sample s).respond none) =
      .next (ingest raw ((afterSample sample s).respond none)) :=
    exec_submit_of_legal (s := (afterSample sample s).respond none) hi.config hr hraw
  rw [runListing_submit_poll hsubmit, runListing_poll_submit hpoll, hpoll', hsubmit', ingest_respond_afterSample]

/-- Situation (a): the POLL after the SUBMIT takes the new sample, the one before it finds none. -/
theorem runListing_differ_of_empty (hi : Inv s) (hr : s.ready = true) (hraw : raw.toNat < 2 ^ s.cfg.sampleW)
    (hempty : s.idx = s.cnt) (hroom : s.cnt < s.cfg.blockSize) :
    runListing [(.producer, .submit raw), (.consumer, .poll)] s
      ≠ runListing [(.consumer, .poll), (.producer, .submit raw)] s := by
  have hsubmit : exec (.submit raw) s = .next (ingest raw s) := exec_submit_of_legal hi.config hr hraw
  have hpoll : exec .poll s = .next (s.respond none) := exec_poll_of_idle hi.config hr (by omega)
  have hsubmit' : exec (.submit raw) (s.respond none) = .next (ingest raw (s.respond none)) :=
    exec_submit_of_legal (s := s.respond none) hi.config hr hraw
  rw [runListing_submit_poll hsubmit, runListing_poll_submit hpoll, hsubmit', ingest_room hroom,
    ingest_room (s := s.respond none) hroom]
  intro hsame
  obtain ⟨-, hmore, hlast⟩ := exec_poll_counters hsame
  simp only [State.respond_cnt, State.respond_idx] at hmore hlast
  by_cases h : s.idx + 1 = s.cfg.blockSize
  · have := hlast (by omega) h
    omega
  · have := hmore (by omega) h
    omega

/-- Situation (b): the SUBMIT before the POLL finds the buffer full, the one after it starts the next block. -/
theorem runListing_differ_of_full (hi : Inv s) (hr : s.ready = true) (hraw : raw.toNat < 2 ^ s.cfg.sampleW)
    (hfull : s.cnt = s.cfg.blockSize) (hlast : s.idx + 1 = s.cfg.blockSize) :
    runListing [(.producer, .submit raw), (.consumer, .poll)] s
      ≠ runListing [(.consumer, .poll), (.producer, .submit raw)] s := by
  obtain ⟨sample, hread⟩ := Option.isSome_iff_exists.1 (hi.accepted hr s.idx (by omega))
  have hdrop : exec (.submit raw) s = .next s :=
    (exec_submit_of_legal hi.config hr hraw).trans (congrArg _ (ingest_full (by omega)))
  have hpoll := exec_poll_of_last_sample hi.config hr (by omega) hlast hread
  rw [runListing_submit_poll hdrop, runListing_poll_submit hpoll]
  generalize decodeDigit s.cfg _ = dg at hpoll ⊢
  have hsubmit : exec (.submit raw) (blockReported dg s) = .next (ingest raw (blockReported dg s)) :=
    exec_submit_of_legal (s := blockReported dg s) hi.config hr hraw
  have hroom : 0 < s.cfg.blockSize := by omega
  rw [hsubmit, ingest_room (s := blockReported dg s) hroom, hpoll]
  intro hsame
  cases congrArg State.cnt (Host.Outcome.next.inj hsame)

/-- Settles O27: outside the two situations a sample waits and the POLL does not take the block's last one. -/
theorem orderMattersInTwoSituations : Obligations.OrderMattersInTwoSituations := by
  intro s raw hi hr hraw
  obtain ⟨hle, hcnt, hidx⟩ := hi.counters hr
  constructor
  · rintro hsame (⟨hempty, hroom⟩ | ⟨hfull, hlast⟩)
    · exact runListing_differ_of_empty hi hr hraw hempty hroom hsame
    · exact runListing_differ_of_full hi hr hraw hfull hlast hsame
  · intro hneither
    exact runListing_commute hi hr hraw (by omega) (by omega)

/-! ### Whole schedules: overload, FEEDV and silence -/

/-- Settles O35: the schedule leaves the counts of samples accepted and consumed, and the samples in the buffer. -/
theorem overloadKeepsTheFirstSamples : Obligations.OverloadKeepsTheFirstSamples := by
  intro s ls hi hr hcnt hls hlt
  obtain ⟨d1, d2, m, hrun, hentries, -⟩ := runListing_insideBlock hi hr hcnt hls hlt
  exact ⟨_, hrun, sampleCounts_accepted hls, rfl, hentries⟩

theorem feedv_concat (raws : List Word16) (raw : Word16) :
    feedv (raws ++ [raw]) =
      (feedv raws ++ [(Agent.producer, Instr.submit raw)]) ++ [(Agent.consumer, Instr.poll)] := by
  simp [feedv, feed]

@[simp] theorem submitted_feedv (raws : List Word16) : submitted (feedv raws) = raws := by
  induction raws using List.reverseRecOn with
  | nil => rfl
  | append_singleton raws raw ih => rw [feedv_concat, submitted_poll, submitted_submit, ih]

@[simp] theorem pollCount_feedv (raws : List Word16) : pollCount (feedv raws) = raws.length := by
  induction raws using List.reverseRecOn with
  | nil => rfl
  | append_singleton raws raw ih => rw [feedv_concat, pollCount_poll, pollCount_submit, ih, List.length_append]; rfl

/-- A SUBMIT in a block all of whose samples are consumed leaves one that waits. -/
theorem sampleCounts_submit_of_consumed {ls : List Line} {n : Nat} (h : sampleCounts B ls = (n, n)) (hroom : n < B) :
    sampleCounts B (ls ++ [(.producer, .submit raw)]) = (n + 1, n) := by
  rw [sampleCounts_submit_of_room (by rwa [h]), h]

/-- FEEDV consumes each sample at once (R84). -/
theorem sampleCounts_feedv (h : raws.length ≤ B) : sampleCounts B (feedv raws) = (raws.length, raws.length) := by
  induction raws using List.reverseRecOn with
  | nil => rfl
  | append_singleton raws raw ih =>
    rw [List.length_append, List.length_singleton] at h ⊢
    have hsubmit := sampleCounts_submit_of_consumed (raw := raw) (ih (by omega)) h
    rw [feedv_concat, sampleCounts_poll_of_waiting (by rw [hsubmit]; exact Nat.lt_succ_self _), hsubmit]

theorem sampleLine_feedv {w : Nat} (h : ∀ raw ∈ raws, raw.toNat < 2 ^ w) : ∀ l ∈ feedv raws, SampleLine w l := by
  intro l hl
  obtain ⟨raw, hraw, hl⟩ := List.mem_flatMap.1 hl
  simp only [feed, List.mem_cons, List.not_mem_nil, or_false] at hl
  rcases hl with rfl | rfl
  · exact .inr ⟨raw, h raw hraw, rfl⟩
  · exact .inl rfl

/-- Settles O38: FEEDV but for its last POLL is a schedule one POLL short of the block's end. -/
theorem feedingABlockReportsItsDigit : Obligations.FeedingABlockReportsItsDigit := by
  intro s raws hi hr hcnt hlength hraws
  have hpos := blockSize_pos_of_configWf hi.config
  obtain rfl | ⟨first, last, rfl⟩ := List.eq_nil_or_concat' raws
  · exact absurd hlength hpos.ne
  rw [List.length_append, List.length_singleton] at hlength
  obtain ⟨hfirst, hlast⟩ := List.forall_mem_append.1 hraws
  have hroom : first.length < s.cfg.blockSize := by omega
  have hcounts := sampleCounts_submit_of_consumed (raw := last) (sampleCounts_feedv hroom.le) hroom
  have hlines : ∀ l ∈ feedv first ++ [(Agent.producer, Instr.submit last)], SampleLine s.cfg.sampleW l :=
    List.forall_mem_append.2 ⟨sampleLine_feedv hfirst, List.forall_mem_singleton.2
      (.inr ⟨last, hlast last List.mem_cons_self, rfl⟩)⟩
  obtain ⟨-, m, hrun, hbuf⟩ := aBlockReportsItsDigit s _ hi hr hcnt hlines (by rw [hcounts]; exact hlength)
    (by rw [hcounts]; exact Nat.lt_succ_self _)
  have htake : (first ++ [last]).take s.cfg.blockSize = first ++ [last] := List.take_of_length_le (by simp [hlength])
  rw [← feedv_concat] at hrun
  rw [submitted_submit, submitted_feedv, pollCount_submit, pollCount_feedv, htake] at hrun
  rw [submitted_submit, submitted_feedv, htake] at hbuf
  refine ⟨m, ?_, fun j hj => hbuf j ?_⟩
  · rwa [← hlength, Nat.add_sub_cancel]
  · simpa [hlength] using hj

end Sys2Proof.Safety

/-! # Ranges of the arithmetic; silence and a high Threshold (41_filter_bank.md, 42_block_finalizer.md) -/

namespace Sys2Proof.Machine

variable {v : Int} {n : Nat}

/-! ### The narrowing write (R107) -/

theorem narrow16_eq_self (mode : OvfMode) (hlow : -32768 ≤ v) (hhigh : v ≤ 32767) : narrow16 mode v = v := by
  cases mode with
  | wrap => exact wrapS_eq_self (n := 16) (by norm_num) hlow (by norm_num; omega)
  | sat =>
    norm_num [narrow16, satS]
    omega

theorem narrow16_sat_above (h : v > 32767) : narrow16 .sat v = 32767 := by
  norm_num [narrow16, satS]
  omega

theorem narrow16_sat_below (h : v < -32768) : narrow16 .sat v = -32768 := by
  norm_num [narrow16, satS]
  omega

/-- WRAP gives a congruent value. -/
theorem narrow16_wrap_congr (v : Int) : (narrow16 .wrap v - v) % 65536 = 0 :=
  Int.emod_eq_emod_iff_emod_sub_eq_zero.1 (wrapS_congr 16 v)

/-- Settles O44: both modes at and beyond the range, then the worked examples by evaluation. -/
theorem narrowingWrite : Obligations.NarrowingWrite := by
  refine ⟨fun m y => narrow16_eq_self m, fun y => ⟨?_, ?_, narrow16_wrap_congr y⟩, fun y => narrow16_sat_above,
    fun y => narrow16_sat_below, by decide, by decide, by decide, by decide, by decide, by decide, rfl⟩
  · exact (narrow16_bounds .wrap y).1
  · exact (narrow16_bounds .wrap y).2

/-! ### The intermediates of one sample (R102 to R105) -/

/-- A raw sample of `n` bits is centered into the signed range of `n` bits. -/
theorem centered_bounds {raw : Word16} (hn : 1 ≤ n) (hraw : raw.toNat < 2 ^ n) :
    -(2 : Int) ^ (n - 1) ≤ centered n raw ∧ centered n raw ≤ (2 : Int) ^ (n - 1) - 1 := by
  have hpow : (2 : Int) ^ n = 2 ^ (n - 1) + 2 ^ (n - 1) := by
    rw [← two_mul, ← pow_succ', Nat.sub_add_cancel hn]
  have hcast : (raw.toNat : Int) < 2 ^ n := by exact_mod_cast hraw
  unfold centered
  constructor <;> linarith [Int.natCast_nonneg raw.toNat]

theorem product_bounds (d1 c : Word16) :
    -(2 : Int) ^ 30 ≤ d1.toInt * c.toInt ∧ d1.toInt * c.toInt ≤ (2 : Int) ^ 30 := by
  refine abs_le.1 ?_
  calc |d1.toInt * c.toInt| = |d1.toInt| * |c.toInt| := abs_mul _ _
    _ ≤ 32768 * 32768 := mul_le_mul (abs_toInt_le d1) (abs_toInt_le c) (abs_nonneg _) (by norm_num)
    _ = (2 : Int) ^ 30 := by norm_num

/-- Settles O45: the new output is the sum of the three terms, each at its extreme. -/
theorem intermediatesStayInRange : Obligations.IntermediatesStayInRange := by
  intro d1 d2 c raw n hn hn' hraw
  obtain ⟨hx, hx'⟩ := centered_bounds hn hraw
  obtain ⟨hfb, hfb'⟩ := feedback_bounds d1 c
  obtain ⟨hd, hd'⟩ : -32768 ≤ d2.toInt ∧ d2.toInt ≤ 32767 := regInt_bounds d2
  have hpow : (2 : Int) ^ (n - 1) ≤ 2 ^ 15 := pow_le_pow_right₀ (by norm_num) (by omega)
  refine ⟨product_bounds d1 c, ⟨hfb, hfb'⟩, ⟨hx, hx'⟩, ?_⟩
  unfold newOutput
  constructor <;> linarith

/-! ### A Threshold that no magnitude exceeds (R125) -/

theorem detectionCode_eq_zero {s : State}
    (h : ∀ k : Fin 7, magnitude s.cfg (s.d1.get k) (s.d2.get k) (s.cfg.coeff.get k) ≤ (s.thresh.toNat : Int)) :
    detectionCode s = 0 := by
  refine BitVec.eq_of_getLsbD_eq fun k hk => ?_
  have hbit := Safety.detectionCode_bit s ⟨k, hk⟩
  rw [decide_eq_false (not_lt.2 (h ⟨k, hk⟩))] at hbit
  simpa using hbit

/-- A 32-bit accumulator shifted right by 16 is at most 32767. -/
theorem asr_wrapS_32_le (v : Int) : asr (wrapS 32 v) 16 ≤ 32767 := by
  have hhigh := (wrapS_bounds 32 v).2
  norm_num [asr] at hhigh ⊢
  omega

theorem detectionCode_of_ceiling {s : State} (hacc : s.cfg.accW = 32) (hshift : s.cfg.finalShift = 16)
    (hthresh : 32767 ≤ s.thresh.toNat) : detectionCode s = 0 := by
  refine detectionCode_eq_zero fun k => ?_
  rw [magnitude, hacc, hshift]
  exact (asr_wrapS_32_le _).trans (by exact_mod_cast hthresh)

/-- Where no digit is decoded the response is `none`, whatever `LATCH` held. -/
theorem response_of_no_digit (latch : Option Symbol) :
    (if none = latch then (0x00 : Rsp) else rspWord none) = 0x00 := by
  split <;> rfl

/-- Settles O47: with Detection Code 0 the end of a block responds `none`, as every other POLL does. -/
theorem thresholdCeiling : Obligations.ThresholdCeiling := by
  intro s hacc hshift hthresh
  refine ⟨detectionCode_of_ceiling hacc hshift hthresh, fun t h => ?_⟩
  obtain ⟨hc, -, -⟩ := execPoll_next.1 h
  rcases exec_poll_next_cases h with ⟨-, rfl⟩ | ⟨-, -, raw, -, rfl⟩ | ⟨-, -, raw, -, rfl⟩
  · rfl
  · rfl
  · rw [detectionCode_of_ceiling (s := afterSample raw s) hacc hshift hthresh, Safety.concludeBlock_completed,
      decodeDigit_zero hc, Safety.blockReported, response_of_no_digit]

end Sys2Proof.Machine

namespace Sys2Proof.Safety

open Sys2Proof.Machine

variable {s : State} {c : Config} {raws : List Word16}

/-! ### Silence (R127, R128) -/

/-- Zero samples leave the recurrence at zero. -/
theorem goertzel_replicate_zero (mode : OvfMode) (coeff : Int) (n : Nat) :
    goertzel mode coeff (List.replicate n 0) = (0, 0) := by
  induction n with
  | zero => rfl
  | succ n ih =>
    rw [List.replicate_succ', goertzel_concat, ih]
    simp [goertzelStep, asr, narrow16_eq_self]

theorem centeredAll_silence (h : ∀ raw ∈ raws, raw.toNat = 2 ^ (c.sampleW - 1)) :
    centeredAll c raws = List.replicate raws.length 0 := by
  refine List.eq_replicate_iff.2 ⟨List.length_map _, fun x hx => ?_⟩
  obtain ⟨raw, hraw, rfl⟩ := List.mem_map.1 hx
  simp [h raw hraw]

theorem wrapS_zero {n : Nat} (hn : 1 ≤ n) : wrapS n 0 = 0 :=
  wrapS_eq_self hn (by simp) (by positivity)

/-- A block of mid-scale samples has Detection Code 0 at every Threshold. -/
theorem blockCode_silence (thresh : Word16) (hacc : 1 ≤ c.accW) (h : ∀ raw ∈ raws, raw.toNat = 2 ^ (c.sampleW - 1)) :
    blockCode c thresh raws = 0 := by
  have hmagnitude : ∀ coeff, blockMagnitude c coeff raws = 0 := fun coeff => by
    rw [blockMagnitude, centeredAll_silence h, goertzel_replicate_zero]
    simp [asr, wrapS_zero hacc]
  have hbelow : ¬ 0 > (thresh.toNat : Int) := not_lt.2 (Int.natCast_nonneg _)
  simp only [blockCode, hmagnitude, if_neg hbelow]
  decide

theorem accW_pos_of_configWf (h : configWf c = true) : 1 ≤ c.accW := by
  simp only [configWf, Bool.and_eq_true, decide_eq_true_eq] at h
  omega

/-- Settles O39: the block's code is 0, which decodes to `none`. -/
theorem silenceClearsTheLatch : Obligations.SilenceClearsTheLatch := by
  intro s ls hi hr hcnt hls hsilent hlast hwaiting
  obtain ⟨-, m, hrun, -⟩ := aBlockReportsItsDigit s ls hi hr hcnt hls hlast hwaiting
  have hblock := fun raw hraw => hsilent raw (List.mem_of_mem_take (i := s.cfg.blockSize) hraw)
  rw [blockCode_silence s.thresh (accW_pos_of_configWf hi.config) hblock, decodeDigit_zero hi.config] at hrun
  refine ⟨_, hrun, rfl, ?_⟩
  dsimp only
  rw [response_of_no_digit, List.append_assoc, ← List.replicate_succ']

end Sys2Proof.Safety
